-- ==== Sys2Proof/Word.lean ====
section
/-! DEFINITION. The words of the engine: bytes (R9) and the 16-bit quantities of the pan and tilt fields (R57). -/

namespace Sys2Proof

/-- A byte, an integer 0..255 with bit 0 least significant (R9). -/
abbrev Byte := BitVec 8

/-- The pattern of a 16-bit quantity (R57); `BitVec.toInt` is the `sext_16` of R11. -/
abbrev Half := BitVec 16

end Sys2Proof
end

