-- ==== Sys2Proof/Config.lean ====
section
/-! DEFINITION. The constants of the engine (R8 'fixed' rows, R20) and its configuration record (R8, R22). -/

namespace Sys2Proof

namespace Const

/-- STX, opens an outbound frame (R20, R81). -/
abbrev stx : Byte := 0x02
/-- ETX, closes both kinds of frame (R20, R81). -/
abbrev etx : Byte := 0x03
/-- ACK, opens an inbound frame (R20, R81). -/
abbrev ack : Byte := 0x06
/-- NACK: a member of the control-character set without a role (R20, R81, R102 a). -/
abbrev nack : Byte := 0x15
/-- ESC, introduces an escaped byte (R20, R81). -/
abbrev esc : Byte := 0x1B
/-- ACK_WINDOW: the reads of one acknowledgment window (R8). -/
abbrev ackWindow : Nat := 10
/-- TMO_MIN (R8). -/
abbrev tmoMin : Int := 0
/-- TMO_MAX (R8). -/
abbrev tmoMax : Int := 120
/-- SENTINEL_ABS, 999.9 degrees in tenths (R8). -/
abbrev sentinelAbs : Int := 9999
/-- SENTINEL_DELTA (R8). -/
abbrev sentinelDelta : Int := 0
/-- TX_BUF_LEN (R8, R52). -/
abbrev txBufLen : Nat := 18
/-- The floor of RX_BUF_LEN (R8, R53). -/
abbrev rxBufFloor : Nat := 28
/-- The floor of ARG_BITS (R8, D3): a value outside int16 can be presented. -/
abbrev argBitsFloor : Nat := 17

end Const

/-- HOME_REPLY (R8): the reading of the `home` reply that is in force (90_conflicts C3). -/
inductive HomeReply where
  | none
  | status
  deriving DecidableEq, Repr

/-- The status-bit layout parameters of R8: the position of every named bit (R92, R95, R96). -/
structure Layout where
  gsDownMoving : Fin 8
  gsUpMoving : Fin 8
  gsCcwMoving : Fin 8
  gsCwMoving : Fin 8
  gsSoftLimitOverride : Fin 8
  gsDes : Fin 8
  gsExec : Fin 8
  gsEncoderMode : Fin 8
  axResolverFault : Fin 8
  axOl : Fin 8
  axDe : Fin 8
  axTo : Fin 8
  axHardLimitA : Fin 8
  axHardLimitB : Fin 8
  axSoftLimitA : Fin 8
  axSoftLimitB : Fin 8
  cbReset : Fin 8
  cbStop : Fin 8
  cbOverrideSoftLimit : Fin 8
  cbReturnResolverUnits : Fin 8
  deriving DecidableEq, Repr

/-- The named positions of the `general_status` byte, in the order of R95. -/
def Layout.gs (l : Layout) : List (Fin 8) :=
  [l.gsDownMoving, l.gsUpMoving, l.gsCcwMoving, l.gsCwMoving, l.gsSoftLimitOverride, l.gsDes, l.gsExec, l.gsEncoderMode]

/-- The named positions of an axis status byte, in the order of R96. -/
def Layout.ax (l : Layout) : List (Fin 8) :=
  [l.axResolverFault, l.axOl, l.axDe, l.axTo, l.axHardLimitA, l.axHardLimitB, l.axSoftLimitA, l.axSoftLimitB]

/-- The named positions of the command-bits byte, in the order of R92. -/
def Layout.cb (l : Layout) : List (Fin 8) :=
  [l.cbReset, l.cbStop, l.cbOverrideSoftLimit, l.cbReturnResolverUnits]

/-- What may be assumed of a layout (91_not_in_source N1): the named positions of one byte are pairwise distinct, and
`CB_RESET` is bit 0 (R92). -/
def Layout.valid (l : Layout) : Bool :=
  decide l.gs.Nodup && decide l.ax.Nodup && decide l.cb.Nodup && l.cbReset == 0

/-- The configuration record of R8 and R22: fixed before reset is released, changed by no operation and no byte. -/
structure Config where
  /-- HAS_IDENTITY, OPEN (D5). -/
  hasIdentity : Bool
  /-- IDENTITY, OPEN, read only when HAS_IDENTITY (D5). -/
  identity : Byte
  /-- MAX_SEND_ATTEMPTS, OPEN (D14); `none` is the unbounded resend of the reference design. -/
  maxSendAttempts : Option Nat
  /-- STARTUP_MAX_ATTEMPTS, OPEN (D15); `none` is the unbounded handshake of the reference design. -/
  startupMaxAttempts : Option Nat
  /-- SOFT_FAULT_ABORTS (D18). -/
  softFaultAborts : Bool
  /-- HOME_REPLY (D10). -/
  homeReply : HomeReply
  /-- RX_BUF_LEN, OPEN, at least 28 (D13). -/
  rxBufLen : Nat
  /-- ARG_BITS, at least 17 (D3): the width of the operands a host can present (R100). -/
  argBits : Nat
  /-- The status-bit layout (D4). -/
  layout : Layout
  deriving DecidableEq, Repr

/-- A bound of R8, 'none or count >= 1'. -/
def boundOk : Option Nat → Bool
  | none => true
  | some n => decide (1 ≤ n)

/-- The restrictions R8 and R53 put on a configuration. -/
def Config.valid (c : Config) : Bool :=
  boundOk c.maxSendAttempts && boundOk c.startupMaxAttempts && decide (Const.rxBufFloor ≤ c.rxBufLen) &&
    decide (Const.argBitsFloor ≤ c.argBits) && c.layout.valid

/-- FREE VALUE (log entry 23): the transport's answer to the `n`-th read that no list of State holds. R56 lets every read have
every answer, so nothing is known of it. -/
opaque Config.rxFree : Nat → Option Byte

end Sys2Proof
end

