-- ==== Sys2Proof/Syntax.lean ====
section
/-! DEFINITION. The instructions: one constructor per row of spec/opcode_table.json, seven wire commands (R88) and nine
host-operation codes (R100). Angles are in tenths of a degree and timeouts in seconds (R12); `none` is an absent axis. -/

namespace Sys2Proof

inductive Instr where
  /-- `get_status`, wire command 0 (R158). -/
  | getStatus
  /-- `fault_reset`, wire command 1 (R159). -/
  | faultReset
  /-- `move_absolute`, wire command 2 (R160). -/
  | moveAbsolute (pan tilt : Option Int)
  /-- `move_delta`, wire command 3 (R161). -/
  | moveDelta (pan tilt : Option Int)
  /-- `home`, wire command 4 (R162). -/
  | home
  /-- `get_communication_timeout`, wire command 5 (R163). -/
  | getCommunicationTimeout
  /-- `set_communication_timeout`, wire command 6 (R164). -/
  | setCommunicationTimeout (t : Int)
  /-- `STARTUP`, host operation 0x0 (R226). -/
  | opStartup
  /-- `GET_STATUS`, host operation 0x1 (R213). -/
  | opGetStatus
  /-- `FAULT_RESET`, host operation 0x2 (R221). -/
  | opFaultReset
  /-- `MOVE_ABSOLUTE`, host operation 0x3 (R214). -/
  | opMoveAbsolute (pan tilt : Option Int)
  /-- `MOVE_DELTA`, host operation 0x4 (R214). -/
  | opMoveDelta (pan tilt : Option Int)
  /-- `HOME`, host operation 0x5 (R214). -/
  | opHome
  /-- `GET_TMO`, host operation 0x6 (R223). -/
  | opGetTmo
  /-- `SET_TMO`, host operation 0x7 (R224). -/
  | opSetTmo (tmo : Int)
  /-- The unassigned host-operation codes 0x8 .. 0xF (R229). -/
  | opUnsupported (code : BitVec 4)
  deriving DecidableEq, Repr

end Sys2Proof
end

