-- ==== Sys2Proof/Machine/Records.lean ====
section
/-! DEFINITION. The typed records of the channels and of the packet layer: commands, operations, faults, replies, results,
notifications, actions (R6, R88, R100, R166, R211, R250, R262). -/

namespace Sys2Proof.Machine

/-- The seven wire commands, in the order of their index (R88). -/
inductive Cmd where
  | getStatus
  | faultReset
  | moveAbsolute
  | moveDelta
  | home
  | getCommunicationTimeout
  | setCommunicationTimeout
  deriving DecidableEq, Repr

/-- The eight assigned host operations (R100). -/
inductive HostOp where
  | startup
  | getStatus
  | faultReset
  | moveAbsolute
  | moveDelta
  | home
  | getTmo
  | setTmo
  deriving DecidableEq, Repr

/-- The record the host places on `cmd` (format HO, R100). Its operands are unbounded integers, as D3 lets a model hold them;
`HostRecord.fits` says which records a host of a given ARG_BITS can place. -/
structure HostRecord where
  op : BitVec 4
  pan : Option Int
  tilt : Option Int
  tmo : Int
  deriving DecidableEq, Repr

/-- A signed integer of `bits` bits (R100); for the width 0, which no valid configuration has, as for 1. -/
def fitsArg (bits : Nat) (v : Int) : Bool :=
  decide (-((2 ^ (bits - 1) : Nat) : Int) ≤ v) && decide (v < ((2 ^ (bits - 1) : Nat) : Int))

/-- An axis operand of a host operation: absent, or a signed integer of ARG_BITS bits (R100). -/
def hostAxisOk (bits : Nat) : Option Int → Bool
  | none => true
  | some v => fitsArg bits v

/-- The records a host can place: every operand, used or not, is a signed integer of ARG_BITS bits (R8, R100). -/
def HostRecord.fits (bits : Nat) (r : HostRecord) : Bool :=
  hostAxisOk bits r.pan && hostAxisOk bits r.tilt && fitsArg bits r.tmo

/-- The operands a wire command is assembled from (R141); a command reads only its own. -/
structure Args where
  pan : Option Int
  tilt : Option Int
  tmo : Int
  deriving DecidableEq, Repr

/-- No operands. -/
def Args.empty : Args := ⟨none, none, 0⟩

/-- The two axes (R262). -/
inductive Axis where
  | pan
  | tilt
  deriving DecidableEq, Repr

/-- The hard-fault flags of an axis byte (R216). -/
inductive HardFlag where
  | timeout
  | directionError
  | overload
  deriving DecidableEq, Repr

/-- The soft-fault flags of an axis byte (R216): limit switches, the hard-limit switches among them. -/
inductive SoftFlag where
  | hardLimitA
  | hardLimitB
  | softLimitA
  | softLimitB
  deriving DecidableEq, Repr

/-- A `StatusResponse` (R166); `pan` and `tilt` are int16 patterns in tenths, `cameraData` is `none` or not empty. -/
structure StatusResponse where
  pan : Half
  tilt : Half
  panStatus : Byte
  tiltStatus : Byte
  generalStatus : Byte
  zoom : Byte
  focus : Byte
  cameraCount : Byte
  cameraData : Option (List Byte)
  deriving DecidableEq, Repr

/-- The typed results of `parse` (R166). -/
inductive Reply where
  | status (s : StatusResponse)
  | timeout (t : BitVec 7)
  | nothing
  deriving DecidableEq, Repr

/-- A fatal fault with the information R250 records for it. These are faults of the engine, taken by `onFault` (R266). -/
inductive Raise where
  /-- E_FRAMING (R251): the length of the received frame. -/
  | framing (rxLen : Nat)
  /-- E_CHECKSUM (R252): the fold. -/
  | checksum (fold : Byte)
  /-- E_OPCODE (R253): the expected and the actual opcode. -/
  | opcode (expected actual : Byte)
  /-- E_UNSUPPORTED (R254): the host-operation code. -/
  | unsupported (op : BitVec 4)
  /-- E_RANGE (R255): the offending operand. -/
  | range (v : Int)
  /-- E_ESCAPE (R256): the raw frame is in `rx_buf`. -/
  | escape
  /-- E_LENGTH (R257): the number of bytes found. -/
  | length (found : Nat)
  /-- E_NO_RESPONSE (R258): `attempt`. -/
  | noResponse (attempt : Nat)
  /-- E_STARTUP (R259): `startup_n` and the code of the last tolerated fault. -/
  | startup (n : Nat) (last : BitVec 4)
  deriving DecidableEq, Repr

/-- The records of `note` (R262). -/
inductive Notification where
  | hardFault (axis : Axis) (flag : HardFlag)
  | softFault (axis : Axis) (flag : SoftFlag)
  | resetFailed (hard : List (Axis × HardFlag))
  | tmoMismatch (requested readBack : BitVec 7)
  | tmoRange (rejected : Int)
  deriving DecidableEq, Repr

/-- The code of a notification (R262). -/
def Notification.code : Notification → Nat
  | .hardFault _ _ => 1
  | .softFault _ _ => 2
  | .resetFailed _ => 3
  | .tmoMismatch _ _ => 4
  | .tmoRange _ => 5

/-- The number of an axis in a notification (R262). -/
def Axis.number : Axis → Nat
  | .pan => 0
  | .tilt => 1

/-- The records of `res` (R211). -/
inductive Result where
  | okStatus (s : StatusResponse)
  | okReset (ok : Bool) (s : StatusResponse) (hard : List (Axis × HardFlag))
  | moveDone (successful : Bool) (s : StatusResponse) (hard : List (Axis × HardFlag)) (soft : List (Axis × SoftFlag))
  | okTmo (t : BitVec 7)
  | rejected
  | fault (e : Raise)
  deriving DecidableEq, Repr

/-- One action on one of the five channels (R6). -/
inductive Action where
  /-- A record taken from `cmd`. -/
  | accept (r : HostRecord)
  /-- `TxWrite(f)` (R55). -/
  | txWrite (f : List Byte)
  /-- The answer one `RxRead()` got: a byte, or `none` for a read timeout (R56). -/
  | rxRead (a : Option Byte)
  /-- `Notify` (R11). -/
  | note (n : Notification)
  /-- `Finish` (R11). -/
  | result (r : Result)
  deriving DecidableEq, Repr

/-- What a decoder is given: a record of `cmd` (format HO), or the payload bytes `opcode ++ data` of a wire command
(format PL of R84 less identity and checksum). -/
inductive Code where
  | record (r : HostRecord)
  | payload (bs : List Byte)
  deriving DecidableEq, Repr

/-- Why a byte sequence is no instruction. -/
inductive DecodeError where
  /-- No byte, hence no opcode. -/
  | emptyPayload
  /-- A first byte that is none of the five opcodes of R89. -/
  | unknownOpcode (op : Byte)
  /-- An opcode of R89 with a number of data bytes that no row of its has (R107). -/
  | badDataLength (op : Byte) (found : Nat)
  /-- A frame without its STX or ETX (R82). -/
  | badFrame
  /-- A frame whose escaped region ends in ESC (R128). -/
  | badEscape
  /-- A payload without identity, opcode and checksum bytes (R84). -/
  | shortPayload
  /-- A payload whose XOR-fold is not zero (R85). -/
  | badChecksum
  deriving DecidableEq, Repr

end Sys2Proof.Machine
end

