-- ==== Sys2Proof/Machine/Codec.lean ====
section
/-! DEFINITION. The byte framer: int16 codec, checksum, escape codec (40_codec.md R120 to R131). -/

namespace Sys2Proof.Machine

/-- `encode_int16` (R120): two's complement, low byte first; out of range is E_RANGE, never a truncation. -/
def encodeInt16 (v : Int) : Except Raise (List Byte) :=
  if v < -32768 ∨ 32767 < v then .error (.range v)
  else .ok [BitVec.ofNat 8 (v % 65536).toNat, BitVec.ofNat 8 ((v % 65536).toNat / 256)]

/-- `decode_int16` (R121): the 16-bit pattern, low byte first; its signed value is `BitVec.toInt`. -/
def decodeInt16 (b : List Byte) : Except Raise Half :=
  match b with
  | [lo, hi] => .ok (hi ++ lo)
  | _ => .error (.length b.length)

/-- `checksum` (R123, R125): the XOR-fold from zero. -/
def checksum : List Byte → Byte
  | [] => 0
  | b :: s => b ^^^ checksum s

/-- Membership of CTRL (R20). -/
def isCtrl (b : Byte) : Bool :=
  b == Const.stx || b == Const.etx || b == Const.ack || b == Const.nack || b == Const.esc

/-- `escape` (R126). -/
def escape : List Byte → List Byte
  | [] => []
  | b :: s => if isCtrl b then Const.esc :: (b ||| 0x80) :: escape s else b :: escape s

/-- Puts a decoded byte before the rest of an `unescape`. -/
def consOk (b : Byte) : Except Raise (List Byte) → Except Raise (List Byte)
  | .ok s => .ok (b :: s)
  | .error e => .error e

/-- `unescape` (R127): the byte after an ESC is data whatever its value; an ESC at the last index is E_ESCAPE (R128). -/
def unescape : List Byte → Except Raise (List Byte)
  | [] => .ok []
  | [b] => if b = Const.esc then .error .escape else .ok [b]
  | b :: x :: s => if b = Const.esc then consOk (x &&& 0x7F) (unescape s) else consOk b (unescape (x :: s))

end Sys2Proof.Machine
end

