-- ==== Sys2Proof/Machine/Flags.lean ====
section
/-! DEFINITION. The status flags: bit tests (R9, R131), the command-bits byte (R92), fault classification (R216). -/

namespace Sys2Proof.Machine

/-- `bit(b, n)` of R9. -/
def bitAt (b : Byte) (n : Fin 8) : Bool := b.getLsbD n.val

/-- The byte whose only set bit is `n`, weight `2^n` (R9). -/
def bitByte (n : Fin 8) : Byte := 1#8 <<< n.val

/-- The DES flag of a general-status byte (R95). -/
def desBit (c : Config) (gs : Byte) : Bool := bitAt gs c.layout.gsDes

/-- The EXEC flag of a general-status byte (R95). -/
def execBit (c : Config) (gs : Byte) : Bool := bitAt gs c.layout.gsExec

/-- The position of a hard-fault flag in an axis byte (R96). -/
def hardPos (l : Layout) : HardFlag → Fin 8
  | .timeout => l.axTo
  | .directionError => l.axDe
  | .overload => l.axOl

/-- The position of a soft-fault flag in an axis byte (R96). -/
def softPos (l : Layout) : SoftFlag → Fin 8
  | .hardLimitA => l.axHardLimitA
  | .hardLimitB => l.axHardLimitB
  | .softLimitA => l.axSoftLimitA
  | .softLimitB => l.axSoftLimitB

/-- The order of R216 and R217 within one axis: TO, DE, OL. -/
def hardFlags : List HardFlag := [.timeout, .directionError, .overload]

/-- The soft-fault flags in the order R216 writes them and R96 lists them. -/
def softNames : List SoftFlag := [.hardLimitA, .hardLimitB, .softLimitA, .softLimitB]

/-- The bit positions of a byte, ascending. -/
def positions : List (Fin 8) := [0, 1, 2, 3, 4, 5, 6, 7]

/-- The order of R217 and D19 within one axis: the limit flags by ascending bit position of the layout. For every layout that
places them in the order R216 writes them, the default among them, this is `softNames` (log entry 22). -/
def softFlags (l : Layout) : List SoftFlag := positions.flatMap (fun n => softNames.filter (fun f => softPos l f == n))

/-- The hard faults of one axis byte, in the order of R217. -/
def axisHard (l : Layout) (ax : Axis) (b : Byte) : List (Axis × HardFlag) :=
  (hardFlags.filter (fun f => bitAt b (hardPos l f))).map (fun f => (ax, f))

/-- The soft faults of one axis byte, in the order of R217. -/
def axisSoft (l : Layout) (ax : Axis) (b : Byte) : List (Axis × SoftFlag) :=
  ((softFlags l).filter (fun f => bitAt b (softPos l f))).map (fun f => (ax, f))

/-- The hard list of `Classify(ps, ts)` (R216): pan before tilt. -/
def classifyHard (c : Config) (ps ts : Byte) : List (Axis × HardFlag) :=
  axisHard c.layout .pan ps ++ axisHard c.layout .tilt ts

/-- The soft list of `Classify(ps, ts)` (R216): pan before tilt. -/
def classifySoft (c : Config) (ps ts : Byte) : List (Axis × SoftFlag) :=
  axisSoft c.layout .pan ps ++ axisSoft c.layout .tilt ts

/-- The command-bits byte of `get_status` and `fault_reset` (R92): only CB_RESET is ever 1. -/
def commandBits (reset : Bool) : Byte := if reset then bitByte 0 else 0

end Sys2Proof.Machine
end

