-- ==== Sys2Proof/Machine/Operands.lean ====
section
/-! DEFINITION. The data bytes of the seven wire commands from their operands: the assemble routines R158 to R164 over the
formats of R90, R93, R97, R98. -/

namespace Sys2Proof.Machine

/-- Format D5S (R90): the command bits and four zero jog fields (R91). -/
def statusRequestData (reset : Bool) : List Byte := [commandBits reset, 0, 0, 0, 0]

/-- The operand that is encoded for an axis: the sentinel stands for an absent one (R98). -/
def axisValue (sentinel : Int) (o : Option Int) : Int := o.getD sentinel

/-- Format D4M (R93): pan then tilt; pan is encoded first, so its E_RANGE is the one reported (R160, R264). -/
def moveData (sentinel : Int) (pan tilt : Option Int) : Except Raise (List Byte) :=
  match encodeInt16 (axisValue sentinel pan) with
  | .error e => .error e
  | .ok p =>
    match encodeInt16 (axisValue sentinel tilt) with
    | .error e => .error e
    | .ok t => .ok (p ++ t)

/-- The query byte of `get_communication_timeout` (R97, R99). -/
def queryData : List Byte := [0x80]

/-- The data byte of `set_communication_timeout`, or the rejection of R164 outside 0 .. 120. -/
def timeoutData (t : Int) : Option (List Byte) :=
  if t < Const.tmoMin ∨ Const.tmoMax < t then none else some [BitVec.ofInt 8 t]

/-- The assemble routine of each wire command; `.ok none` is `reject` (R164). -/
def assembleData (cmd : Cmd) (a : Args) : Except Raise (Option (List Byte)) :=
  match cmd with
  | .getStatus => .ok (some (statusRequestData false))
  | .faultReset => .ok (some (statusRequestData true))
  | .moveAbsolute => (moveData Const.sentinelAbs a.pan a.tilt).map some
  | .moveDelta => (moveData Const.sentinelDelta a.pan a.tilt).map some
  | .home => .ok (some [])
  | .getCommunicationTimeout => .ok (some queryData)
  | .setCommunicationTimeout => .ok (timeoutData a.tmo)

/-- `data[0] & 0x7F` of R165, the 7-bit timeout of R99. -/
def timeoutValue (b : Byte) : BitVec 7 := b.extractLsb' 0 7

end Sys2Proof.Machine
end

