-- ==== Sys2Proof/Machine/Packet.lean ====
section
/-! DEFINITION. The command registry (R21, R88) and the two pipelines of 41_assemble_parse.md: `assemble` (R141) and `parse`
(R150). -/

namespace Sys2Proof.Machine

/-- The outbound data formats of R80. -/
inductive DataFormat where
  | d5s
  | d4m
  | dnil
  | d1t
  deriving DecidableEq, Repr

/-- The reply kinds of R80. -/
inductive ReplyKind where
  | rs
  | rt
  | rnil
  deriving DecidableEq, Repr

/-- A command descriptor (R88). -/
structure Descriptor where
  name : String
  index : BitVec 3
  opcode : Byte
  dataFormat : DataFormat
  replyKind : ReplyKind
  deriving DecidableEq, Repr

/-- The reply kind of `home` (R88, R162). -/
def homeReplyKind (c : Config) : ReplyKind :=
  match c.homeReply with
  | .none => .rnil
  | .status => .rs

/-- The registry, a ROM of seven descriptors (R21, R88). -/
def registry (c : Config) : Cmd → Descriptor
  | .getStatus => ⟨"get_status", 0, 0x31, .d5s, .rs⟩
  | .faultReset => ⟨"fault_reset", 1, 0x31, .d5s, .rs⟩
  | .moveAbsolute => ⟨"move_absolute", 2, 0x33, .d4m, .rs⟩
  | .moveDelta => ⟨"move_delta", 3, 0x34, .d4m, .rs⟩
  | .home => ⟨"home", 4, 0x35, .dnil, homeReplyKind c⟩
  | .getCommunicationTimeout => ⟨"get_communication_timeout", 5, 0x96, .d1t, .rt⟩
  | .setCommunicationTimeout => ⟨"set_communication_timeout", 6, 0x96, .d1t, .rt⟩

/-- The number of data bytes of an outbound format (R90, R93, R97). -/
def formatLen : DataFormat → Nat
  | .d5s => 5
  | .d4m => 4
  | .dnil => 0
  | .d1t => 1

/-- Step 4 of R141: the identity byte, present only when HAS_IDENTITY (R144). -/
def identityBytes (c : Config) : List Byte := if c.hasIdentity then [c.identity] else []

/-- Steps 3 to 6 of R141: `body` is `opcode ++ data`; the checksum covers it alone (R85), the escape covers the identity
too (R86), the delimiters are attached last (R130). -/
def frameOf (c : Config) (body : List Byte) : List Byte :=
  Const.stx :: (escape (identityBytes c ++ (body ++ [checksum body])) ++ [Const.etx])

/-- `assemble(cmd, args)` (R141); `.ok none` is `reject`. -/
def assemble (c : Config) (cmd : Cmd) (a : Args) : Except Raise (Option (List Byte)) :=
  match assembleData cmd a with
  | .error e => .error e
  | .ok none => .ok none
  | .ok (some d) => .ok (some (frameOf c ((registry c cmd).opcode :: d)))

/-- Steps 1 and 2 of R150: the body between ACK and ETX, if both markers are there (R151). -/
def frameBody (frame : List Byte) : Option (List Byte) :=
  if frame.length < 2 ∨ frame.head? ≠ some Const.ack ∨ frame.getLast? ≠ some Const.etx then none
  else some frame.tail.dropLast

/-- Step 4 of R150: the first byte is dropped when HAS_IDENTITY, and is not compared (R153). -/
def stripIdentity (c : Config) (u : List Byte) : Except Raise (List Byte) :=
  if c.hasIdentity then
    match u with
    | [] => .error (.length 0)
    | _ :: r => .ok r
  else .ok u

/-- The status parse routine (R157). -/
def parseStatus (data : List Byte) : Except Raise Reply :=
  match data with
  | p0 :: p1 :: t0 :: t1 :: ps :: ts :: gs :: z :: f :: n :: cam =>
    match decodeInt16 [p0, p1], decodeInt16 [t0, t1] with
    | .ok p, .ok t => .ok (.status ⟨p, t, ps, ts, gs, z, f, n, if cam = [] then none else some cam⟩)
    | .error e, _ => .error e
    | _, .error e => .error e
  | _ => .error (.length data.length)

/-- The timeout parse routine (R165). -/
def parseTimeout (data : List Byte) : Except Raise Reply :=
  match data with
  | [b] => .ok (.timeout (timeoutValue b))
  | _ => .error (.length data.length)

/-- The `home` reply under HOME_REPLY = NONE (R162). -/
def parseNothing (data : List Byte) : Except Raise Reply :=
  if data = [] then .ok .nothing else .error (.length data.length)

/-- Step 8 of R150: the parse routine of the reply kind (R88). -/
def parseData (k : ReplyKind) (data : List Byte) : Except Raise Reply :=
  match k with
  | .rs => parseStatus data
  | .rt => parseTimeout data
  | .rnil => parseNothing data

/-- Steps 7 and 8 of R150 on `opcode ++ data` (R156). -/
def parsePayload (d : Descriptor) (u : List Byte) : Except Raise Reply :=
  match u with
  | [] => .error (.length 0)
  | op :: data => if op ≠ d.opcode then .error (.opcode d.opcode op) else parseData d.replyKind data

/-- Steps 4a to 8 of R150, on the payload without its identity (R152, R154, R155). -/
def parseChecked (d : Descriptor) (u : List Byte) : Except Raise Reply :=
  if u.length < 2 then .error (.length u.length)
  else if checksum u ≠ 0 then .error (.checksum (checksum u))
  else parsePayload d u.dropLast

/-- `parse(cmd, frame)` (R150): the checks in the order of the steps; the first that fails is reported (R264). -/
def parse (c : Config) (cmd : Cmd) (frame : List Byte) : Except Raise Reply :=
  match frameBody frame with
  | none => .error (.framing frame.length)
  | some body =>
    match unescape body with
    | .error e => .error e
    | .ok u =>
      match stripIdentity c u with
      | .error e => .error e
      | .ok p => parseChecked (registry c cmd) p

end Sys2Proof.Machine
end

