-- ==== Sys2Proof/WellFormed.lean ====
section
/-! DEFINITION. Which instructions can be written as an encoding: the operand ranges of R98, R100, R164. -/

namespace Sys2Proof

/-- A value in the range of `encode_int16` (R120). -/
def fitsInt16 (v : Int) : Bool := decide (-32768 ≤ v) && decide (v ≤ 32767)

/-- An axis operand of a move frame: absent, or an int16 other than the sentinel, which on the wire IS the absent operand
(R98, R305). -/
def wireAxisOk (sentinel : Int) : Option Int → Bool
  | none => true
  | some v => fitsInt16 v && v != sentinel

/-- The timeout range of R164, 0 .. 120 inclusive. -/
def tmoOk (t : Int) : Bool := decide (Const.tmoMin ≤ t) && decide (t ≤ Const.tmoMax)

/-- The instructions that an encoding of 30_encoding.md stands for, in a configuration: ARG_BITS bounds the host's operands. -/
def WellFormed (c : Config) : Instr → Bool
  | .getStatus => true
  | .faultReset => true
  | .moveAbsolute p t => wireAxisOk Const.sentinelAbs p && wireAxisOk Const.sentinelAbs t
  | .moveDelta p t => wireAxisOk Const.sentinelDelta p && wireAxisOk Const.sentinelDelta t
  | .home => true
  | .getCommunicationTimeout => true
  | .setCommunicationTimeout t => tmoOk t
  | .opStartup => true
  | .opGetStatus => true
  | .opFaultReset => true
  | .opMoveAbsolute p t => Machine.hostAxisOk c.argBits p && Machine.hostAxisOk c.argBits t
  | .opMoveDelta p t => Machine.hostAxisOk c.argBits p && Machine.hostAxisOk c.argBits t
  | .opHome => true
  | .opGetTmo => true
  | .opSetTmo v => Machine.fitsArg c.argBits v
  | .opUnsupported code => decide (8 ≤ code.toNat)

end Sys2Proof
end

