-- ==== Sys2Proof/Decode.lean ====
section
/-! DEFINITION. The decoder and the encoder: host-operation records (R100) and wire-command payloads (R104, R107), with the
monitor's view of a whole outbound frame (R82, R104). -/

namespace Sys2Proof

open Machine

/-- A wire-command row of spec/opcode_table.json (R107): match and mask over the word `W`, and the data length. -/
structure WireRow where
  cmd : Cmd
  pattern : BitVec 16
  mask : BitVec 16
  dataLen : Nat
  deriving DecidableEq, Repr

/-- The seven wire-command rows of the table. -/
def wireRows : List WireRow :=
  [⟨.getStatus, 0x3100, 0xFF01, 5⟩, ⟨.faultReset, 0x3101, 0xFF01, 5⟩, ⟨.moveAbsolute, 0x3300, 0xFF00, 4⟩,
   ⟨.moveDelta, 0x3400, 0xFF00, 4⟩, ⟨.home, 0x3500, 0xFF00, 0⟩, ⟨.getCommunicationTimeout, 0x9680, 0xFF80, 1⟩,
   ⟨.setCommunicationTimeout, 0x9600, 0xFF80, 1⟩]

/-- `W = (opcode << 8) | data0`, with 0 for an absent data byte (R107). -/
def payloadWord (op : Byte) (data : List Byte) : BitVec 16 := op ++ data.headD 0

/-- Whether a row is spelled by `opcode ++ data` (R107). -/
def WireRow.spells (r : WireRow) (op : Byte) (data : List Byte) : Bool :=
  (payloadWord op data &&& r.mask) == r.pattern && data.length == r.dataLen

/-- The operand an int16 field of a move frame stands for: the sentinel is the absent operand (R98, R305). -/
def wireAxis (sentinel : Int) (lo hi : Byte) : Option Int :=
  let v := (hi ++ lo : Half).toInt
  if v = sentinel then none else some v

/-- The two operands of format D4M (R93). -/
def wireAxes (sentinel : Int) : List Byte → Option Int × Option Int
  | [p0, p1, t0, t1] => (wireAxis sentinel p0 p1, wireAxis sentinel t0 t1)
  | _ => (none, none)

/-- The instruction of a row with its data bytes. -/
def wireInstr (cmd : Cmd) (data : List Byte) : Instr :=
  match cmd with
  | .getStatus => .getStatus
  | .faultReset => .faultReset
  | .moveAbsolute => .moveAbsolute (wireAxes Const.sentinelAbs data).1 (wireAxes Const.sentinelAbs data).2
  | .moveDelta => .moveDelta (wireAxes Const.sentinelDelta data).1 (wireAxes Const.sentinelDelta data).2
  | .home => .home
  | .getCommunicationTimeout => .getCommunicationTimeout
  | .setCommunicationTimeout => .setCommunicationTimeout (timeoutValue (data.headD 0)).toNat

/-- Whether a byte is one of the five opcodes of R89. -/
def isOpcode (op : Byte) : Bool := op == 0x31 || op == 0x33 || op == 0x34 || op == 0x35 || op == 0x96

/-- The decoder of a payload `opcode ++ data` (R104, R107), total on byte sequences. -/
def decodePayload (bs : List Byte) : Except DecodeError Instr :=
  match bs with
  | [] => .error .emptyPayload
  | op :: data =>
    match wireRows.find? (fun r => r.spells op data) with
    | some r => .ok (wireInstr r.cmd data)
    | none => if isOpcode op then .error (.badDataLength op data.length) else .error (.unknownOpcode op)

/-- The host operation of a code (R100); `none` for the unassigned codes 8 .. F. -/
def hostOpOf (code : BitVec 4) : Option HostOp :=
  match code.toNat with
  | 0 => some .startup
  | 1 => some .getStatus
  | 2 => some .faultReset
  | 3 => some .moveAbsolute
  | 4 => some .moveDelta
  | 5 => some .home
  | 6 => some .getTmo
  | 7 => some .setTmo
  | _ => none

/-- The code of a host operation (R100). -/
def hostOpCode : HostOp → BitVec 4
  | .startup => 0
  | .getStatus => 1
  | .faultReset => 2
  | .moveAbsolute => 3
  | .moveDelta => 4
  | .home => 5
  | .getTmo => 6
  | .setTmo => 7

/-- The decoder of a host-operation record (R100): every record is an operation, and the fields it does not use are
ignored. -/
def decodeRecord (r : HostRecord) : Instr :=
  match hostOpOf r.op with
  | some .startup => .opStartup
  | some .getStatus => .opGetStatus
  | some .faultReset => .opFaultReset
  | some .moveAbsolute => .opMoveAbsolute r.pan r.tilt
  | some .moveDelta => .opMoveDelta r.pan r.tilt
  | some .home => .opHome
  | some .getTmo => .opGetTmo
  | some .setTmo => .opSetTmo r.tmo
  | none => .opUnsupported r.op

/-- The decoder. -/
def decode : Code → Except DecodeError Instr
  | .record r => .ok (decodeRecord r)
  | .payload bs => decodePayload bs

/-- The decoder of a whole outbound frame, as a monitor of `tx` would write it (R104): the steps of R141 undone in reverse
order, then `decodePayload`. The engine itself never decodes an outbound frame. -/
def decodeFrame (c : Config) (frame : List Byte) : Except DecodeError Instr :=
  if frame.length < 2 ∨ frame.head? ≠ some Const.stx ∨ frame.getLast? ≠ some Const.etx then .error .badFrame
  else
    match unescape frame.tail.dropLast with
    | .error _ => .error .badEscape
    | .ok u =>
      match stripIdentity c u with
      | .error _ => .error .shortPayload
      | .ok p =>
        if p.length < 2 then .error .shortPayload
        else if checksum p ≠ 0 then .error .badChecksum
        else decodePayload p.dropLast

/-! ### The encoder -/

/-- The record of an operation with axis operands. -/
def moveRecord (op : HostOp) (pan tilt : Option Int) : HostRecord := ⟨hostOpCode op, pan, tilt, 0⟩

/-- The record of an operation without operands; the fields it does not use are absent or zero. -/
def plainRecord (code : BitVec 4) : HostRecord := ⟨code, none, none, 0⟩

/-- The data bytes of a move command; an operand out of range has no encoding and gives none. -/
def encodeAxes (sentinel : Int) (pan tilt : Option Int) : List Byte :=
  match moveData sentinel pan tilt with
  | .ok d => d
  | .error _ => []

/-- The encoding of an instruction: the payload `opcode ++ data` of R88 for a wire command, the record of R100 for a host
operation. Meant for well-formed instructions. -/
def encode : Instr → Code
  | .getStatus => .payload (0x31 :: statusRequestData false)
  | .faultReset => .payload (0x31 :: statusRequestData true)
  | .moveAbsolute p t => .payload (0x33 :: encodeAxes Const.sentinelAbs p t)
  | .moveDelta p t => .payload (0x34 :: encodeAxes Const.sentinelDelta p t)
  | .home => .payload [0x35]
  | .getCommunicationTimeout => .payload (0x96 :: queryData)
  | .setCommunicationTimeout t => .payload [0x96, BitVec.ofInt 8 t]
  | .opStartup => .record (plainRecord (hostOpCode .startup))
  | .opGetStatus => .record (plainRecord (hostOpCode .getStatus))
  | .opFaultReset => .record (plainRecord (hostOpCode .faultReset))
  | .opMoveAbsolute p t => .record (moveRecord .moveAbsolute p t)
  | .opMoveDelta p t => .record (moveRecord .moveDelta p t)
  | .opHome => .record (plainRecord (hostOpCode .home))
  | .opGetTmo => .record (plainRecord (hostOpCode .getTmo))
  | .opSetTmo v => .record ⟨hostOpCode .setTmo, none, none, v⟩
  | .opUnsupported c => .record (plainRecord c)

/-! ### Words of the opcode table -/

/-- The data bytes after `data0` that the table gives no bits, all zero: as many as the opcode's data length asks (R88). -/
def tableData (op data0 : Byte) : List Byte :=
  if op = 0x31 then [data0, 0, 0, 0, 0]
  else if op = 0x33 ∨ op = 0x34 then [data0, 0, 0, 0]
  else if op = 0x35 then []
  else [data0]

/-- The encoding a table word stands for: one byte is the 4-bit `op` of a record with absent operands, two bytes are
`W = (opcode << 8) | data0` of a payload (R107). -/
def tableCode (nbits w : Nat) : Code :=
  if nbits ≤ 8 then .record (plainRecord (BitVec.ofNat 4 w))
  else
    let op := BitVec.ofNat 8 (w / 256)
    .payload (op :: tableData op (BitVec.ofNat 8 w))

/-- The instruction the decoder reads from a word numbered as spec/opcode_table.json numbers its bits. -/
def decodeTableWord (nbits w : Nat) : Option Instr :=
  match decode (tableCode nbits w) with
  | .ok i => some i
  | .error _ => none

end Sys2Proof
end

