-- ==== Sys2Proof/Machine/Defaults.lean ====
section
/-! DEFINITION. The defaults of the configuration record (R8, R92, R95, R96). -/

namespace Sys2Proof

/-- The defaults of R92, R95 and R96: every list of names read least significant bit first (D4). -/
def Layout.default : Layout where
  gsDownMoving := 0
  gsUpMoving := 1
  gsCcwMoving := 2
  gsCwMoving := 3
  gsSoftLimitOverride := 4
  gsDes := 5
  gsExec := 6
  gsEncoderMode := 7
  axResolverFault := 0
  axOl := 1
  axDe := 2
  axTo := 3
  axHardLimitA := 4
  axHardLimitB := 5
  axSoftLimitA := 6
  axSoftLimitB := 7
  cbReset := 0
  cbStop := 1
  cbOverrideSoftLimit := 2
  cbReturnResolverUnits := 3

/-- The configuration of `State.reset`. The defaults of R8 are the spec's. DESIGN CHOICE (log entry 1), unsafe for a claim
about `State.reset` alone: the OPEN parameters take the values that 95_test_vectors.md uses where a vector names none. -/
def Config.default : Config where
  hasIdentity := false
  identity := 0
  maxSendAttempts := none
  startupMaxAttempts := none
  softFaultAborts := true
  homeReply := .none
  rxBufLen := 64
  argBits := 32
  layout := Layout.default

end Sys2Proof
end

