-- ==== Sys2Proof/Machine/State.lean ====
section
/-! DEFINITION. The state of the engine: every register, buffer and flag of 10_state.md, the configuration record, and the
channels' data (R6). Plain data. -/

namespace Sys2Proof.Machine

/-- `phase`, the engine's program counter (R25, R26). -/
inductive Phase where
  | idle
  | ackWait
  | body
  deriving DecidableEq, Repr

/-- `stage` (R25). -/
inductive Stage where
  | first
  | second
  deriving DecidableEq, Repr

/-- A general register (R23): a valid flag and a 16-bit signed value in tenths; `valid = false` is `unset`. -/
structure GenReg where
  valid : Bool
  value : Half
  deriving DecidableEq, Repr

/-- A byte-addressed buffer (R50): address and byte pairs in one canonical form, see `Memory.wf`. -/
abbrev Memory := List Host.Cell

/-- What a byte of a buffer that nothing has written reads as. DESIGN CHOICE (log entry 4), unsafe: R35 leaves the contents
of both buffers unspecified. -/
def Memory.blank : Byte := 0

/-- The canonical form of a buffer: addresses strictly rising, and no entry equal to what an unlisted address reads as. -/
def Memory.wf : Memory → Bool
  | [] => true
  | [c] => c.2 != Memory.blank
  | c :: d :: m => c.2 != Memory.blank && decide (c.1 < d.1) && Memory.wf (d :: m)

/-- What the transport does when `rxs` has run out and a read is outstanding (R5, R56): environment data, log entry 23. -/
inductive Feed where
  /-- It gives no answer, so the engine waits. -/
  | stop
  /-- It gives this sequence of answers again and again. -/
  | cycle (first : Option Byte) (rest : List (Option Byte))
  /-- It gives an answer that nothing is known of: the free value `Config.rxFree n`, and then the next. -/
  | free (n : Nat)
  deriving DecidableEq, Repr

/-- The machine's state. -/
structure State where
  /-- The configuration record, read-only (R22). -/
  cfg : Config
  /-- Last-known pan (R23). -/
  curPan : GenReg
  /-- Last-known tilt (R23). -/
  curTilt : GenReg
  /-- Last echoed pan destination (R23). -/
  destPan : GenReg
  /-- Last echoed tilt destination (R23). -/
  destTilt : GenReg
  /-- The program counter (R26). -/
  phase : Phase
  /-- The code of the host operation being executed (R25). -/
  op : BitVec 4
  /-- Which transaction of the operation is running (R25). -/
  stage : Stage
  /-- The command of the running transaction (R25). -/
  curCmd : Cmd
  /-- How often `tx_buf` has been written in the running transaction (R25). -/
  attempt : Nat
  /-- Non-ACK bytes read in the current acknowledgment window (R25). -/
  win : Nat
  /-- `get_status` attempts of the running STARTUP (R25). -/
  startupN : Nat
  /-- The timeout requested by the running SET_TMO (R25). -/
  reqTmo : BitVec 7
  /-- The space TXB (R28, R50). -/
  txBuf : Memory
  /-- `tx_len` (R28). -/
  txLen : Nat
  /-- The space RXB (R29, R50). -/
  rxBuf : Memory
  /-- `rx_len` (R29). -/
  rxLen : Nat
  /-- `fault_code`, 0 for no fault (R31, R250). -/
  faultCode : BitVec 4
  /-- `fault_exp` (R31). -/
  faultExp : Byte
  /-- `fault_act` (R31). -/
  faultAct : Byte
  /-- The records waiting at the host on `cmd`, the first is presented first (R6, R26). -/
  cmd : List HostRecord
  /-- The answers the transport will give to the coming `RxRead()` calls, in order; `none` is a read timeout (R50, R56). -/
  rxs : List (Option Byte)
  /-- What the transport does when `rxs` has run out (R5, R56; log entry 23): with it every read of a run without end is
  answered (R304). -/
  rxMore : Feed
  /-- Every action on the channels so far, oldest first (R6, R62): `tx`, `note` and `res` are views of it. -/
  log : List Action
  /-- The reset input is asserted (R34). -/
  resetIn : Bool
  /-- The MODEL's own (log entry 8): the payload of a wire command placed from outside for the next step; no rule of the
  spec writes it. -/
  issue : Option (List Byte)
  deriving DecidableEq, Repr

/-- What stops the model with a fault. The engine's own fatal faults are NOT here: they are next states (R266). -/
inductive Fault where
  /-- Raised by a read or a write of a buffer index that R50 gives no byte; no reachable state does it. Safe: the model stops. -/
  | bufferRange
  /-- Raised by `continueOp` on a combination of operation, stage and reply that R212 says cannot occur. Safe: the model
  stops. -/
  | noContinuation
  deriving DecidableEq, Repr

/-- What the model refuses. -/
inductive Refusal where
  /-- Raised by an arm of `exec` for an instruction without a meaning; no arm does. Safe. -/
  | notModelled (mnemonic : String)
  /-- Raised by the fetch of the model's own issue slot when its bytes spell no wire command (R107). Safe: the model stops. -/
  | undecodable (e : DecodeError)
  deriving DecidableEq, Repr

/-- The outcome of a step of this machine. -/
abbrev Out := Host.Outcome State Fault Refusal

/-- A register that is `unset` (R23). The value half is unspecified at reset (R35); 0 is DESIGN CHOICE (log entry 2),
unsafe. -/
def GenReg.unset : GenReg := ⟨false, 0⟩

/-- The machine right after reset (R35, R290): general registers `unset`, idle, both lengths 0, fault registers 0, nothing
emitted, no host record (R291). Registers that R35 leaves unspecified: DESIGN CHOICE, unsafe (log entries 2 and 3). The OPEN
parameters of the configuration: DESIGN CHOICE (log entry 1). The transport's answers are unknown (R5; log entry 23). -/
def State.reset : State where
  cfg := Config.default
  curPan := GenReg.unset
  curTilt := GenReg.unset
  destPan := GenReg.unset
  destTilt := GenReg.unset
  phase := .idle
  op := 0
  stage := .first
  curCmd := .getStatus
  attempt := 1
  win := 0
  startupN := 1
  reqTmo := 0
  txBuf := []
  txLen := 0
  rxBuf := []
  rxLen := 0
  faultCode := 0
  faultExp := 0
  faultAct := 0
  cmd := []
  rxs := []
  rxMore := .free 0
  log := []
  resetIn := false
  issue := none

end Sys2Proof.Machine
end

