-- ==== Sys2Proof/Machine/Ops.lean ====
section
/-! DEFINITION. The named operations over buffers, registers and channels: memory, the pseudocode primitives of R11,
`UpdateRuntime` (R190), `StartXact` (R181), the fault handler `OnFault` (R266), reset (R290, R292), acceptance (R210). -/

namespace Sys2Proof.Machine

/-! ### Buffers (R50) -/

/-- The byte of a buffer at an address; an address nothing has written reads as `Memory.blank`. -/
def Memory.read : Memory → Nat → Byte
  | [], _ => Memory.blank
  | c :: m, a => if c.1 = a then c.2 else Memory.read m a

/-- The cell to list for a byte: none for the value an unlisted address reads as. -/
def cellOf (a : Nat) (b : Byte) : Memory := if b = Memory.blank then [] else [(a, b)]

/-- Writes one byte, keeping the canonical form. -/
def Memory.write : Memory → Nat → Byte → Memory
  | [], a, b => cellOf a b
  | c :: m, a, b =>
    if a < c.1 then cellOf a b ++ c :: m
    else if a = c.1 then cellOf a b ++ m
    else c :: Memory.write m a b

/-- Writes a byte sequence in index order, the first byte at the given address. -/
def Memory.writeSeq (m : Memory) (a : Nat) : List Byte → Memory
  | [] => m
  | b :: s => Memory.writeSeq (m.write a b) (a + 1) s

/-- The `n` bytes of a buffer from an address, in index order. -/
def Memory.readSeq (m : Memory) (a : Nat) : Nat → List Byte
  | 0 => []
  | n + 1 => m.read a :: Memory.readSeq m (a + 1) n

/-- `buf[0:len]` of a buffer of capacity `cap`; none when it reaches an index the buffer does not have. -/
def frameIn (cap : Nat) (m : Memory) (len : Nat) : Option (List Byte) :=
  if len ≤ cap then some (m.readSeq 0 len) else none

/-! ### Channels (R6, R11) -/

/-- Appends one action to the channels' log. -/
def State.act (a : Action) (s : State) : State := { s with log := s.log ++ [a] }

/-- `TxWrite(f)` (R55): one indivisible action that always succeeds. -/
def txWrite (f : List Byte) (s : State) : State := s.act (.txWrite f)

/-- `Notify(N, info)` (R11, R262). -/
def notify (n : Notification) (s : State) : State := s.act (.note n)

/-- Several notifications, in list order (R217). -/
def notifyAll : List Notification → State → State
  | [], s => s
  | n :: ns, s => notifyAll ns (notify n s)

/-- `Finish(r)` (R11): the result record is emitted and the engine is idle. -/
def finish (r : Result) (s : State) : State := { s.act (.result r) with phase := .idle }

/-- The bytes of the `tx` stream so far (space TXS, R50). -/
def State.txStream (s : State) : List Byte :=
  s.log.flatMap (fun a => match a with | .txWrite f => f | _ => [])

/-- The frames written so far, oldest first. -/
def State.frames (s : State) : List (List Byte) :=
  s.log.filterMap (fun a => match a with | .txWrite f => some f | _ => none)

/-- The `note` channel so far (R262). -/
def State.notes (s : State) : List Notification :=
  s.log.filterMap (fun a => match a with | .note n => some n | _ => none)

/-- The `res` channel so far (R211). -/
def State.results (s : State) : List Result :=
  s.log.filterMap (fun a => match a with | .result r => some r | _ => none)

/-- How many read answers have been consumed (R193). -/
def State.reads (s : State) : Nat :=
  (s.log.filter (fun a => match a with | .rxRead _ => true | _ => false)).length

/-! ### General registers (R23, R24) -/

/-- A general register holding a value, `valid = 1` (R190). -/
def GenReg.set (v : Half) : GenReg := ⟨true, v⟩

/-- `UpdateRuntime(s)` (R190), the only writer of the general registers (R24). -/
def updateRuntime (r : StatusResponse) (s : State) : State :=
  if desBit s.cfg r.generalStatus then { s with destPan := GenReg.set r.pan, destTilt := GenReg.set r.tilt }
  else { s with curPan := GenReg.set r.pan, curTilt := GenReg.set r.tilt }

/-! ### Starting a transaction (R181) -/

/-- The three ways `StartXact` ends (R181). -/
inductive Started where
  | started (s : State)
  | rejected (s : State)
  | raised (e : Raise) (s : State)
  deriving DecidableEq, Repr

/-- The first line of R181. -/
def clearFault (s : State) : State := { s with faultCode := 0, faultExp := 0, faultAct := 0 }

/-- The rest of R181 once the frame is assembled: it is stored, counted, written, and an `RxRead()` is outstanding. -/
def sendFrame (c : Cmd) (f : List Byte) (s : State) : State :=
  { txWrite f s with
    txBuf := s.txBuf.writeSeq 0 f, txLen := f.length, curCmd := c, attempt := 1, rxLen := 0, win := 0, phase := .ackWait }

/-- `StartXact(cmd, args)` (R181). Assembly precedes every effect but the clearing of the fault registers. -/
def startXact (c : Cmd) (a : Args) (s : State) : Started :=
  match assemble s.cfg c a with
  | .error e => .raised e (clearFault s)
  | .ok none => .rejected (clearFault s)
  | .ok (some f) => .started (sendFrame c f (clearFault s))

/-! ### Taking a fault (R266) -/

/-- The code of a fatal fault (R250). -/
def faultCodeOf : Raise → BitVec 4
  | .framing _ => 1
  | .checksum _ => 2
  | .opcode _ _ => 3
  | .unsupported _ => 4
  | .range _ => 5
  | .escape => 6
  | .length _ => 7
  | .noResponse _ => 8
  | .startup _ _ => 9

/-- TOLERATED (R227). -/
def tolerated : Raise → Bool
  | .framing _ => true
  | .checksum _ => true
  | .opcode _ _ => true
  | .unsupported _ => false
  | .range _ => false
  | .escape => true
  | .length _ => true
  | .noResponse _ => true
  | .startup _ _ => false

/-- The first line of `OnFault` (R266). -/
def recordFault (e : Raise) (s : State) : State :=
  match e with
  | .opcode x a => { s with faultCode := faultCodeOf e, faultExp := x, faultAct := a }
  | _ => { s with faultCode := faultCodeOf e }

/-- Whether a bound of R8 is reached by a count. -/
def reached (bound : Option Nat) (n : Nat) : Bool :=
  match bound with
  | none => false
  | some m => decide (m ≤ n)

/-- The tolerated-fault branch of R226: another `get_status`, or E_STARTUP when the attempts are used up. `fault_code` stays
at the code of the last tolerated fault (log entry 12, DEDUCED). The assembly of `get_status` neither raises nor rejects
(R158), so the last two arms are not taken. -/
def startupRetry (e : Raise) (s : State) : State :=
  if reached s.cfg.startupMaxAttempts s.startupN then finish (.fault (.startup s.startupN (faultCodeOf e))) s
  else
    match startXact .getStatus Args.empty { s with startupN := s.startupN + 1 } with
    | .started t => t
    | .rejected t => finish .rejected t
    | .raised x t => finish (.fault x) (recordFault x t)

/-- `OnFault(E, info)` (R266), the one way a fatal fault is taken. There is no handler address and nothing is saved: the
operation ends with a FAULT result, or STARTUP retries. -/
def onFault (e : Raise) (s : State) : State :=
  if s.op = hostOpCode .startup ∧ tolerated e then startupRetry e (recordFault e s)
  else finish (.fault e) (recordFault e s)

/-! ### Reset and acceptance -/

/-- The reset input (R34, R290, R292): every register takes the value of R35; the configuration stays (R22), and so do the
channels' past and the host's and the transport's data (R33, R292). -/
def applyReset (s : State) : State :=
  { State.reset with cfg := s.cfg, cmd := s.cmd, rxs := s.rxs, rxMore := s.rxMore, log := s.log }

/-- The acceptance of R210: `op <- record.op; stage <- FIRST`. -/
def accept (code : BitVec 4) (s : State) : State := { s with op := code, stage := .first }

/-- What the host can read while the engine is idle (R23, R31, R273). -/
structure HostView where
  curPan : GenReg
  curTilt : GenReg
  destPan : GenReg
  destTilt : GenReg
  faultCode : BitVec 4
  faultExp : Byte
  faultAct : Byte
  txFrame : Option (List Byte)
  rxFrame : Option (List Byte)
  deriving DecidableEq, Repr

/-- The host's view, given only while the engine is idle (R23, R273). -/
def State.hostView (s : State) : Option HostView :=
  if s.phase = .idle then
    some ⟨s.curPan, s.curTilt, s.destPan, s.destTilt, s.faultCode, s.faultExp, s.faultAct,
      frameIn Const.txBufLen s.txBuf s.txLen, frameIn s.cfg.rxBufLen s.rxBuf s.rxLen⟩
  else none

/-! ### Fetching (R26, R210) -/

/-- What the idle engine takes next. -/
inductive Fetched where
  /-- Nothing waits: the engine stays idle (R291). -/
  | nothing
  /-- An instruction, and the state it runs in: what was fetched is consumed. -/
  | instr (i : Instr) (s : State)
  /-- Bytes of the issue slot that spell no wire command. -/
  | bad (e : DecodeError)
  deriving DecidableEq, Repr

/-- Takes the first record of `cmd` (R210). -/
def takeRecord (r : HostRecord) (rest : List HostRecord) (s : State) : State := { s.act (.accept r) with cmd := rest }

/-- A wire command runs only inside a host operation (R101): one taken from the issue slot runs as the first command of the
operation whose first command it is, so that `Continue` (R212) finds its row (log entry 8). -/
def enterWire (i : Instr) (s : State) : State :=
  match i with
  | .getStatus => accept (hostOpCode .getStatus) s
  | .faultReset => accept (hostOpCode .faultReset) s
  | .moveAbsolute _ _ => accept (hostOpCode .moveAbsolute) s
  | .moveDelta _ _ => accept (hostOpCode .moveDelta) s
  | .home => accept (hostOpCode .home) s
  | .getCommunicationTimeout => accept (hostOpCode .getTmo) s
  | .setCommunicationTimeout t => { accept (hostOpCode .setTmo) s with reqTmo := BitVec.ofInt 7 t }
  | .opStartup => s
  | .opGetStatus => s
  | .opFaultReset => s
  | .opMoveAbsolute _ _ => s
  | .opMoveDelta _ _ => s
  | .opHome => s
  | .opGetTmo => s
  | .opSetTmo _ => s
  | .opUnsupported _ => s

/-- Empties the model's own issue slot and enters the operation of its command. -/
def takeIssue (i : Instr) (s : State) : State := enterWire i { s with issue := none }

/-- The fetch of an idle engine: the model's own issue slot (log entry 8) if it is loaded, else the next record of `cmd`. -/
def fetch (s : State) : Fetched :=
  match s.issue with
  | some bs =>
    match decode (.payload bs) with
    | .ok i => .instr i (takeIssue i s)
    | .error e => .bad e
  | none =>
    match s.cmd with
    | [] => .nothing
    | r :: rest =>
      match decode (.record r) with
      | .ok i => .instr i (takeRecord r rest s)
      | .error e => .bad e

end Sys2Proof.Machine
end

