-- ==== Sys2Proof/Machine/WireCommands.lean ====
section
/-! DEFINITION. The meanings of the seven wire commands: each begins its transaction (R180, R181). -/

namespace Sys2Proof.Machine

/-- A transaction begun: started, or its assembly's fault taken in the same step (R181, R266). Only
`set_communication_timeout` rejects (R164), and its rejection is R224's. -/
def issueXact (c : Cmd) (a : Args) (s : State) : Out :=
  match startXact c a s with
  | .started t => .next t
  | .rejected t => .next (finish .rejected (notify (.tmoRange a.tmo) t))
  | .raised e t => .next (onFault e t)

/-- `get_status` (R158). -/
def execGetStatus (s : State) : Out := issueXact .getStatus Args.empty s

/-- `fault_reset` (R159). -/
def execFaultReset (s : State) : Out := issueXact .faultReset Args.empty s

/-- `move_absolute` (R160). -/
def execMoveAbsolute (pan tilt : Option Int) (s : State) : Out := issueXact .moveAbsolute ⟨pan, tilt, 0⟩ s

/-- `move_delta` (R161). -/
def execMoveDelta (pan tilt : Option Int) (s : State) : Out := issueXact .moveDelta ⟨pan, tilt, 0⟩ s

/-- `home` (R162). -/
def execHome (s : State) : Out := issueXact .home Args.empty s

/-- `get_communication_timeout` (R163). -/
def execGetCommunicationTimeout (s : State) : Out := issueXact .getCommunicationTimeout Args.empty s

/-- `set_communication_timeout` (R164): outside 0 .. 120 no frame, and the caller is warned (R224, R261). -/
def execSetCommunicationTimeout (t : Int) (s : State) : Out := issueXact .setCommunicationTimeout ⟨none, none, t⟩ s

end Sys2Proof.Machine
end

