-- ==== Sys2Proof/Machine/HostOps.lean ====
section
/-! DEFINITION. The meanings of the host operations: the step that accepts each (R210, R213 to R229). Every operation begins
the transaction of its first wire command (R101). -/

namespace Sys2Proof.Machine

/-- `STARTUP` (R226). -/
def execOpStartup (s : State) : Out := issueXact .getStatus Args.empty { accept (hostOpCode .startup) s with startupN := 1 }

/-- `GET_STATUS` (R213). -/
def execOpGetStatus (s : State) : Out := issueXact .getStatus Args.empty (accept (hostOpCode .getStatus) s)

/-- `FAULT_RESET` (R221). -/
def execOpFaultReset (s : State) : Out := issueXact .faultReset Args.empty (accept (hostOpCode .faultReset) s)

/-- `MOVE_ABSOLUTE` (R214, R215). -/
def execOpMoveAbsolute (pan tilt : Option Int) (s : State) : Out :=
  issueXact .moveAbsolute ⟨pan, tilt, 0⟩ (accept (hostOpCode .moveAbsolute) s)

/-- `MOVE_DELTA` (R214, R215). -/
def execOpMoveDelta (pan tilt : Option Int) (s : State) : Out :=
  issueXact .moveDelta ⟨pan, tilt, 0⟩ (accept (hostOpCode .moveDelta) s)

/-- `HOME` (R214, R215). -/
def execOpHome (s : State) : Out := issueXact .home Args.empty (accept (hostOpCode .home) s)

/-- `GET_TMO` (R223). -/
def execOpGetTmo (s : State) : Out := issueXact .getCommunicationTimeout Args.empty (accept (hostOpCode .getTmo) s)

/-- `SET_TMO` (R224): `req_tmo` is written only when the set command was started. -/
def execOpSetTmo (tmo : Int) (s : State) : Out :=
  match startXact .setCommunicationTimeout ⟨none, none, tmo⟩ (accept (hostOpCode .setTmo) s) with
  | .started t => .next { t with reqTmo := BitVec.ofInt 7 tmo }
  | .rejected t => .next (finish .rejected (notify (.tmoRange tmo) t))
  | .raised e t => .next (onFault e t)

/-- An unassigned code (R229): E_UNSUPPORTED at once, nothing is written to `tx`. `StartXact` is not entered, so `fault_exp`
and `fault_act` stay (log entry 13, DEDUCED). -/
def execOpUnsupported (code : BitVec 4) (s : State) : Out := .next (onFault (.unsupported code) (accept code s))

end Sys2Proof.Machine
end

