-- ==== Sys2Proof/Machine/Transaction.lean ====
section
/-! DEFINITION. The small steps of a running transaction, one per read answer (R182 to R190), and what follows a completed
one: `Complete` (R189) and `Continue` (R212). -/

namespace Sys2Proof.Machine

/-! ### Continue (R212 to R226) -/

/-- The notifications of a move that faults: the hard list, then the soft list (R217, R219). -/
def faultNotes (hard : List (Axis × HardFlag)) (soft : List (Axis × SoftFlag)) : List Notification :=
  hard.map (fun f => .hardFault f.1 f.2) ++ soft.map (fun f => .softFault f.1 f.2)

/-- Whether a poll's faults end the move (R219 a). -/
def pollAborts (c : Config) (hard : List (Axis × HardFlag)) (soft : List (Axis × SoftFlag)) : Bool :=
  !hard.isEmpty || (c.softFaultAborts && !soft.isEmpty)

/-- The completion poll (R218, R219): faults first, then EXEC, else another `get_status`. -/
def continuePoll (r : StatusResponse) (s : State) : Out :=
  let hard := classifyHard s.cfg r.panStatus r.tiltStatus
  let soft := classifySoft s.cfg r.panStatus r.tiltStatus
  if pollAborts s.cfg hard soft then
    .next (finish (.moveDone false r hard soft) (notifyAll (faultNotes hard soft) s))
  else if execBit s.cfg r.generalStatus then issueXact .getStatus Args.empty s
  else .next (finish (.moveDone true r hard soft) s)

/-- `FAULT_RESET`'s report (R221). -/
def continueReset (r : StatusResponse) (s : State) : Out :=
  let hard := classifyHard s.cfg r.panStatus r.tiltStatus
  if hard.isEmpty then .next (finish (.okReset true r []) s)
  else .next (finish (.okReset false r hard) (notify (.resetFailed hard) s))

/-- `SET_TMO`'s comparison of the read-back (R224). -/
def continueReadBack (t : BitVec 7) (s : State) : Out :=
  if t ≠ s.reqTmo then .next (finish (.okTmo t) (notify (.tmoMismatch s.reqTmo t) s))
  else .next (finish (.okTmo t) s)

/-- The first reply of a move: its content is not examined, and the polls begin (R215). -/
def continueMove (s : State) : Out := issueXact .getStatus Args.empty { s with stage := .second }

/-- The rows of R212 for the three move operations. -/
def continueMoveOp (r : Reply) (s : State) : Out :=
  match s.stage, r with
  | .first, .status _ => continueMove s
  | .first, .nothing => continueMove s
  | .second, .status x => continuePoll x s
  | _, _ => .fault .noContinuation

/-- The rows of R212 for SET_TMO. -/
def continueSetTmo (r : Reply) (s : State) : Out :=
  match s.stage, r with
  | .first, .timeout _ => issueXact .getCommunicationTimeout Args.empty { s with stage := .second }
  | .second, .timeout t => continueReadBack t s
  | _, _ => .fault .noContinuation

/-- `Continue(op, stage, r)` (R212). A combination that is not in its table 'cannot occur' and stops the model (log entry 14). -/
def continueOp (r : Reply) (s : State) : Out :=
  match hostOpOf s.op with
  | some .startup => match s.stage, r with
    | .first, .status x => .next (finish (.okStatus x) s)
    | _, _ => .fault .noContinuation
  | some .getStatus => match s.stage, r with
    | .first, .status x => .next (finish (.okStatus x) s)
    | _, _ => .fault .noContinuation
  | some .faultReset => match s.stage, r with
    | .first, .status x => continueReset x s
    | _, _ => .fault .noContinuation
  | some .moveAbsolute => continueMoveOp r s
  | some .moveDelta => continueMoveOp r s
  | some .home => continueMoveOp r s
  | some .getTmo => match s.stage, r with
    | .first, .timeout t => .next (finish (.okTmo t) s)
    | _, _ => .fault .noContinuation
  | some .setTmo => continueSetTmo r s
  | none => .fault .noContinuation

/-! ### The transaction's small steps (R182 to R189) -/

/-- The runtime update of a typed result (R189): only a status response carries one. -/
def updateFor (r : Reply) (s : State) : State :=
  match r with
  | .status x => updateRuntime x s
  | .timeout _ => s
  | .nothing => s

/-- `Complete()` (R189). -/
def complete (s : State) : Out :=
  match frameIn s.cfg.rxBufLen s.rxBuf s.rxLen with
  | none => .fault .bufferRange
  | some f =>
    match parse s.cfg s.curCmd f with
    | .error e => .next (onFault e s)
    | .ok r => continueOp r (updateFor r s)

/-- `NoResponse()` (R185, R186): the identical frame is written again, or E_NO_RESPONSE when the attempts are used up. -/
def noResponse (s : State) : Out :=
  if reached s.cfg.maxSendAttempts s.attempt then .next (onFault (.noResponse s.attempt) s)
  else
    match frameIn Const.txBufLen s.txBuf s.txLen with
    | none => .fault .bufferRange
    | some f => .next { txWrite f s with attempt := s.attempt + 1, rxLen := 0, win := 0, phase := .ackWait }

/-- The ACK byte (R184). -/
def ackSeen (s : State) : Out :=
  if 0 < s.cfg.rxBufLen then .next { s with rxBuf := s.rxBuf.write 0 Const.ack, rxLen := 1, phase := .body }
  else .fault .bufferRange

/-- A byte other than ACK (R183): discarded and counted; the tenth ends the window. -/
def nonAck (s : State) : Out :=
  if s.win + 1 < Const.ackWindow then .next { s with win := s.win + 1 }
  else noResponse { s with win := s.win + 1 }

/-- The answer to the outstanding read of the acknowledgment wait (R182). -/
def onAckAnswer (a : Option Byte) (s : State) : Out :=
  match a with
  | none => noResponse s
  | some b => if b = Const.ack then ackSeen s else nonAck s

/-- `rx_buf[rx_len] <- a; rx_len <- rx_len + 1` (R187). -/
def storeRx (b : Byte) (s : State) : State := { s with rxBuf := s.rxBuf.write s.rxLen b, rxLen := s.rxLen + 1 }

/-- The answer to the outstanding read of the body (R187, R188). -/
def onBodyAnswer (a : Option Byte) (s : State) : Out :=
  match a with
  | none => complete s
  | some b =>
    if s.rxLen < s.cfg.rxBufLen then
      if b = Const.etx ∨ s.rxLen + 1 = s.cfg.rxBufLen then complete (storeRx b s) else .next (storeRx b s)
    else .fault .bufferRange

/-- Consumes the answer of the outstanding read (R56). -/
def takeAnswer (a : Option Byte) (rest : List (Option Byte)) (s : State) : State := { s.act (.rxRead a) with rxs := rest }

/-- The transport's move while a read is outstanding and no answer is listed (R5, R56): it lists answers, or none. Nothing of
the engine changes; the listed answers are taken by the following steps. -/
def deliver (s : State) : State :=
  match s.rxMore with
  | .stop => s
  | .cycle a l => { s with rxs := a :: l }
  | .free n => { s with rxs := [Config.rxFree n], rxMore := .free (n + 1) }

/-- The step of a suspended engine (R7): it takes the transport's answer if one is listed; else the transport moves, and the
engine stays suspended. -/
def onRead (handle : Option Byte → State → Out) (s : State) : Out :=
  match s.rxs with
  | [] => .next (deliver s)
  | a :: rest => handle a (takeAnswer a rest s)

end Sys2Proof.Machine
end

