-- ==== Sys2Proof/Machine/Dispatch.lean ====
section
/-! DEFINITION. The dispatch of the instructions to their meanings, one arm per constructor. -/

namespace Sys2Proof.Machine

def exec (i : Instr) (s : State) : Host.Outcome State Fault Refusal :=
  match i with
  | .getStatus => Sys2Proof.Machine.execGetStatus s
  | .faultReset => Sys2Proof.Machine.execFaultReset s
  | .moveAbsolute pan tilt => Sys2Proof.Machine.execMoveAbsolute pan tilt s
  | .moveDelta pan tilt => Sys2Proof.Machine.execMoveDelta pan tilt s
  | .home => Sys2Proof.Machine.execHome s
  | .getCommunicationTimeout => Sys2Proof.Machine.execGetCommunicationTimeout s
  | .setCommunicationTimeout t => Sys2Proof.Machine.execSetCommunicationTimeout t s
  | .opStartup => Sys2Proof.Machine.execOpStartup s
  | .opGetStatus => Sys2Proof.Machine.execOpGetStatus s
  | .opFaultReset => Sys2Proof.Machine.execOpFaultReset s
  | .opMoveAbsolute pan tilt => Sys2Proof.Machine.execOpMoveAbsolute pan tilt s
  | .opMoveDelta pan tilt => Sys2Proof.Machine.execOpMoveDelta pan tilt s
  | .opHome => Sys2Proof.Machine.execOpHome s
  | .opGetTmo => Sys2Proof.Machine.execOpGetTmo s
  | .opSetTmo tmo => Sys2Proof.Machine.execOpSetTmo tmo s
  | .opUnsupported code => Sys2Proof.Machine.execOpUnsupported code s

end Sys2Proof.Machine
end

