-- ==== Sys2Proof/Machine/Step.lean ====
section
/-! DEFINITION. The step of the sequencer (R7): one event, pure computation, and a stop at the next `RxRead()` or in IDLE. -/

namespace Sys2Proof.Machine

/-- The step of an idle engine (R26, R210). -/
def stepIdle (s : State) : Host.Outcome State Fault Refusal :=
  match fetch s with
  | .nothing => .next s
  | .instr i t => exec i t
  | .bad e => .refused (.undecodable e)

/-- One step: the reset input first (R292), else the event the phase waits for (R26). -/
def step (s : State) : Host.Outcome State Fault Refusal :=
  if s.resetIn then .next (applyReset s)
  else
    match s.phase with
    | .idle => stepIdle s
    | .ackWait => onRead onAckAnswer s
    | .body => onRead onBodyAnswer s

/-- The state with a code placed where the idle engine fetches: a record at the head of `cmd`, or a payload in the issue
slot. -/
def State.withCode (s : State) (c : Code) : State :=
  match c with
  | .record r => { s with phase := .idle, resetIn := false, issue := none, cmd := r :: s.cmd }
  | .payload bs => { s with phase := .idle, resetIn := false, issue := some bs }

/-- The state in which the very next step fetches and runs the instruction of a table word (log entry 8). -/
def State.withFetchWord (s : State) (nbits w : Nat) : State := s.withCode (tableCode nbits w)

end Sys2Proof.Machine
end

