-- ==== Sys2Proof/Machine/Blocking.lean ====
section
/-! DEFINITION. The transaction as one blocking procedure over a list of transport answers (R192). It is not what `step` runs:
R192 is derived from the small steps, which govern, and it is here to be proved to agree with them. -/

namespace Sys2Proof.Machine

/-- How the send and acknowledgment loop of R192 ends on a list of answers. -/
inductive AckEnd where
  /-- An ACK came: the attempt it belongs to, and the answers not yet read. -/
  | acked (attempt : Nat) (rest : List (Option Byte))
  /-- `raise E_NO_RESPONSE(attempt)`: the answers not yet read. -/
  | exhausted (attempt : Nat) (rest : List (Option Byte))
  /-- The answers ran out first. -/
  | waiting
  deriving DecidableEq, Repr

/-- Lifecycle steps 1 to 3 of R192 after the frame of attempt number `attempt` was written and `win` non-ACK bytes of its
window were read. -/
def blockAck (bound : Option Nat) : List (Option Byte) → Nat → Nat → AckEnd
  | [], _, _ => .waiting
  | none :: rest, attempt, _ =>
    if reached bound attempt then .exhausted attempt rest else blockAck bound rest (attempt + 1) 0
  | some b :: rest, attempt, win =>
    if b = Const.ack then .acked attempt rest
    else if win + 1 < Const.ackWindow then blockAck bound rest attempt (win + 1)
    else if reached bound attempt then .exhausted attempt rest
    else blockAck bound rest (attempt + 1) 0

/-- Lifecycle step 4 of R192: the frame `rx` read so far is extended up to ETX, a full buffer or a read timeout; none when
the answers ran out first. -/
def blockBody (bufLen : Nat) : List (Option Byte) → List Byte → Option (List Byte × List (Option Byte))
  | [], _ => none
  | none :: rest, rx => some (rx, rest)
  | some a :: rest, rx =>
    if a = Const.etx ∨ rx.length + 1 = bufLen then some (rx ++ [a], rest) else blockBody bufLen rest (rx ++ [a])

/-- How the transaction of R192 ends. -/
inductive XactEnd where
  /-- A frame went to `parse`: the number of sends, the frame, and the answers not yet read. -/
  | framed (sends : Nat) (rx : List Byte) (rest : List (Option Byte))
  /-- E_NO_RESPONSE after that many sends. -/
  | silent (sends : Nat) (rest : List (Option Byte))
  /-- The answers ran out first. -/
  | waiting
  deriving DecidableEq, Repr

/-- `Xact` of R192 from its first `TxWrite` on, up to and excluding `parse`. -/
def blockXact (c : Config) (answers : List (Option Byte)) : XactEnd :=
  match blockAck c.maxSendAttempts answers 1 0 with
  | .waiting => .waiting
  | .exhausted n rest => .silent n rest
  | .acked n rest =>
    match blockBody c.rxBufLen rest [Const.ack] with
    | none => .waiting
    | some (rx, left) => .framed n rx left

end Sys2Proof.Machine
end

