-- ==== Sys2Proof/Safety.lean ====
section
/-! DEFINITION. The terms claims are stated in: which operation, stage and command go together (R101, R212), the invariant of
the engine's states, the frame an instruction sends. -/

namespace Sys2Proof.Machine

/-- The command that runs in a stage of an operation (R101, R212); none where the operation has no such stage. -/
def stageCmd : HostOp → Stage → Option Cmd
  | .startup, .first => some .getStatus
  | .getStatus, .first => some .getStatus
  | .faultReset, .first => some .faultReset
  | .moveAbsolute, .first => some .moveAbsolute
  | .moveAbsolute, .second => some .getStatus
  | .moveDelta, .first => some .moveDelta
  | .moveDelta, .second => some .getStatus
  | .home, .first => some .home
  | .home, .second => some .getStatus
  | .getTmo, .first => some .getCommunicationTimeout
  | .setTmo, .first => some .setCommunicationTimeout
  | .setTmo, .second => some .getCommunicationTimeout
  | _, _ => none

/-- Whether a count has not passed a bound of R8. -/
def within : Option Nat → Nat → Bool
  | none, _ => true
  | some m, n => decide (n ≤ m)

/-- A running transaction: the command is the one its operation and stage run, `tx_buf` holds the frame that `assemble` made
for it, no fault is recorded (R181), and the counts have not passed their bounds (R186, R226). -/
structure Busy (s : State) : Prop where
  paired : ∃ o, hostOpOf s.op = some o ∧ stageCmd o s.stage = some s.curCmd
  framed : ∃ a f, assemble s.cfg s.curCmd a = .ok (some f) ∧ frameIn Const.txBufLen s.txBuf s.txLen = some f
  noFault : s.faultCode = 0 ∧ s.faultExp = 0 ∧ s.faultAct = 0
  sends : within s.cfg.maxSendAttempts s.attempt = true
  tries : s.op = hostOpCode .startup → within s.cfg.startupMaxAttempts s.startupN = true

/-- The invariant of the engine. -/
structure State.Inv (s : State) : Prop where
  /-- The configuration is one R8 allows. -/
  config : s.cfg.valid = true
  /-- The host's records have operands of ARG_BITS bits (R100). -/
  records : ∀ r ∈ s.cmd, r.fits s.cfg.argBits = true
  /-- Both buffers have their canonical form. -/
  txForm : s.txBuf.wf = true
  rxForm : s.rxBuf.wf = true
  /-- Both buffers lie inside their spaces (R50). -/
  txSpace : ∀ c ∈ s.txBuf, c.1 < Const.txBufLen
  rxSpace : ∀ c ∈ s.rxBuf, c.1 < s.cfg.rxBufLen
  /-- The lengths, and the counts of R25. -/
  txLen : s.txLen ≤ Const.txBufLen
  rxLen : s.rxLen ≤ s.cfg.rxBufLen
  attempt : 1 ≤ s.attempt
  startupN : 1 ≤ s.startupN
  /-- A busy engine runs a transaction. -/
  busy : s.phase ≠ .idle → Busy s
  /-- In the acknowledgment wait nothing is accumulated and the window is not exhausted (R182). -/
  ackWait : s.phase = .ackWait → s.rxLen = 0 ∧ s.win < Const.ackWindow
  /-- In the body `rx_buf` begins with the ACK (R51), is not full (R188), and holds no ETX after it (R187). -/
  body : s.phase = .body → 1 ≤ s.rxLen ∧ s.rxLen < s.cfg.rxBufLen ∧ s.rxBuf.read 0 = Const.ack ∧
    ∀ a, 1 ≤ a → a < s.rxLen → s.rxBuf.read a ≠ Const.etx

/-- The wire command an instruction begins with, and its operands (R101). -/
def firstCmd : Instr → Option (Cmd × Args)
  | .getStatus => some (.getStatus, Args.empty)
  | .faultReset => some (.faultReset, Args.empty)
  | .moveAbsolute p t => some (.moveAbsolute, ⟨p, t, 0⟩)
  | .moveDelta p t => some (.moveDelta, ⟨p, t, 0⟩)
  | .home => some (.home, Args.empty)
  | .getCommunicationTimeout => some (.getCommunicationTimeout, Args.empty)
  | .setCommunicationTimeout t => some (.setCommunicationTimeout, ⟨none, none, t⟩)
  | .opStartup => some (.getStatus, Args.empty)
  | .opGetStatus => some (.getStatus, Args.empty)
  | .opFaultReset => some (.faultReset, Args.empty)
  | .opMoveAbsolute p t => some (.moveAbsolute, ⟨p, t, 0⟩)
  | .opMoveDelta p t => some (.moveDelta, ⟨p, t, 0⟩)
  | .opHome => some (.home, Args.empty)
  | .opGetTmo => some (.getCommunicationTimeout, Args.empty)
  | .opSetTmo v => some (.setCommunicationTimeout, ⟨none, none, v⟩)
  | .opUnsupported _ => none

/-- The frame an instruction writes when it is executed, as `assemble` makes it (R141, R181); none when it writes none. -/
def frameSent (c : Config) (i : Instr) : Option (List Byte) :=
  match firstCmd i with
  | none => none
  | some (cmd, a) =>
    match assemble c cmd a with
    | .ok (some f) => some f
    | _ => none

/-- The state R181 leaves when a transaction with frame `f` has been started in `s`. -/
def sent (c : Cmd) (f : List Byte) (s : State) : State :=
  { s with
    faultCode := 0, faultExp := 0, faultAct := 0, txBuf := s.txBuf.writeSeq 0 f, txLen := f.length, curCmd := c,
    attempt := 1, rxLen := 0, win := 0, phase := .ackWait, log := s.log ++ [.txWrite f] }

/-- The state R266 leaves when the operation running in `s` ends with result `x` after the notifications `ns`. -/
def ended (ns : List Notification) (x : Result) (s : State) : State :=
  { s with phase := .idle, log := s.log ++ ns.map .note ++ [.result x] }

/-- Whether an operation code is one of the three moves (R214). -/
def isMoveOp (code : BitVec 4) : Bool :=
  code == hostOpCode .moveAbsolute || code == hostOpCode .moveDelta || code == hostOpCode .home

/-- Whether an action is the answer of a read. -/
def isRead : Action → Bool
  | .rxRead _ => true
  | .accept _ => false
  | .txWrite _ => false
  | .note _ => false
  | .result _ => false

/-- Whether an action is a result record. -/
def isResult : Action → Bool
  | .result _ => true
  | .rxRead _ => false
  | .accept _ => false
  | .txWrite _ => false
  | .note _ => false

/-- `k` steps, stopping at the first fault or refusal: `Host.Core.run` of this machine over its own types. -/
def stepN : Nat → State → Out
  | 0, s => .next s
  | k + 1, s =>
    match step s with
    | .next t => stepN k t
    | .fault r => .fault r
    | .refused r => .refused r

/-- The four general registers. -/
def State.genRegs (s : State) : GenReg × GenReg × GenReg × GenReg := (s.curPan, s.curTilt, s.destPan, s.destTilt)

end Sys2Proof.Machine
end

