-- ==== Sys2Proof/Certificates/Slice0/Obligations.lean ====
section
/-! DEFINITION. The statements for the provers: what the rules of spec/ say the engine does. -/

open Sys2Proof Sys2Proof.Machine

/-! ### The byte framer -/

/-- R120: in range, the two bytes are the value modulo 65536, low byte first; out of range, E_RANGE with the value. -/
def Obligations.EncodeInt16WritesTwosComplement : Prop :=
  ∀ v : Int,
    (-32768 ≤ v → v ≤ 32767 →
      ∃ lo hi : Byte, encodeInt16 v = .ok [lo, hi] ∧ (lo.toNat : Int) + 256 * hi.toNat = v % 65536) ∧
    (v < -32768 ∨ 32767 < v → encodeInt16 v = .error (.range v))

/-- R122: decoding inverts encoding on the whole range, which is where encoding succeeds, and encoding inverts decoding on
every pair of bytes. -/
def Obligations.Int16CodecIsInverse : Prop :=
  (∀ v : Int, -32768 ≤ v → v ≤ 32767 →
    ∃ b h, encodeInt16 v = .ok b ∧ decodeInt16 b = .ok h ∧ h.toInt = v) ∧
  (∀ v : Int, v < -32768 ∨ 32767 < v → ∃ e, encodeInt16 v = .error e) ∧
  (∀ b : List Byte, b.length = 2 → ∃ h, decodeInt16 b = .ok h ∧ encodeInt16 h.toInt = .ok b)

/-- R124: (a) a sequence with its checksum appended folds to zero; (b) the order of the bytes does not matter, the same bits
flipped in two bytes pass, and a change of one byte never passes; (c) the checksum of a concatenation. -/
def Obligations.ChecksumLaws : Prop :=
  (∀ p : List Byte, checksum (p ++ [checksum p]) = 0) ∧
  (∀ p q : List Byte, p.Perm q → checksum p = checksum q) ∧
  (∀ (p q r : List Byte) (x y m : Byte),
    checksum (p ++ x :: (q ++ y :: r)) = checksum (p ++ (x ^^^ m) :: (q ++ (y ^^^ m) :: r))) ∧
  (∀ (p q : List Byte) (x m : Byte), m ≠ 0 → checksum (p ++ x :: q) ≠ checksum (p ++ (x ^^^ m) :: q)) ∧
  (∀ s t : List Byte, checksum (s ++ t) = checksum s ^^^ checksum t)

/-- R126: the five control characters become ESC and the byte with bit 7 set, every other byte passes, and the length at most
doubles. -/
def Obligations.EscapeIsBytewise : Prop :=
  ∀ s : List Byte,
    escape s = s.flatMap (fun b =>
      if b ∈ ([0x02, 0x03, 0x06, 0x15, 0x1B] : List Byte) then [0x1B, b ||| 0x80] else [b]) ∧
    s.length ≤ (escape s).length ∧ (escape s).length ≤ 2 * s.length

/-- R129: (a) unescape inverts escape; (b) the escaped text has no control character but ESC, and every ESC is followed by a
byte with bit 7 set; (c) escape does not invert unescape; (d) escape distributes over concatenation, unescape does not. -/
def Obligations.EscapeLaws : Prop :=
  (∀ x : List Byte, unescape (escape x) = .ok x) ∧
  (∀ x : List Byte, ∀ b ∈ escape x, b ∈ ([0x02, 0x03, 0x06, 0x15, 0x1B] : List Byte) → b = 0x1B) ∧
  (∀ x pre post : List Byte, escape x = pre ++ 0x1B :: post → ∃ y r, post = y :: r ∧ y.getLsbD 7 = true) ∧
  (∃ y u : List Byte, unescape y = .ok u ∧ escape u ≠ y) ∧
  (∀ s t : List Byte, escape (s ++ t) = escape s ++ escape t) ∧
  (∃ (s t u : List Byte) (e : Raise), unescape (s ++ t) = .ok u ∧ unescape s = .error e)

/-- R127 and R128: nothing unescapes to nothing; an ESC takes the next byte as data with bit 7 cleared, whatever that byte
is; an ESC with no next byte is E_ESCAPE, and nothing else is. -/
def Obligations.UnescapeTakesTheByteAfterEsc : Prop :=
  unescape [] = .ok [] ∧
  (∀ (s u : List Byte), unescape s = .ok u →
    unescape (s ++ [0x1B]) = .error .escape ∧
    (∀ x : Byte, unescape (s ++ [0x1B, x]) = .ok (u ++ [x &&& 0x7F])) ∧
    (∀ x : Byte, x ≠ 0x1B → unescape (s ++ [x]) = .ok (u ++ [x]))) ∧
  (∀ (s : List Byte) (e : Raise), unescape s = .error e →
    e = .escape ∧ ∃ p u, s = p ++ [0x1B] ∧ unescape p = .ok u)

/-! ### The packet layer -/

/-- R146: an assembled frame begins with STX, ends with ETX, has 4 to 18 bytes, holds no other byte of 02, 03, 06, 15, and
stripping, unescaping and stripping the identity gives a sequence that folds to zero. -/
def Obligations.AssembledFrameShape : Prop :=
  ∀ (c : Config) (cmd : Cmd) (a : Args) (f : List Byte), assemble c cmd a = .ok (some f) →
    4 ≤ f.length ∧ f.length ≤ 18 ∧
    ∃ e : List Byte, f = 0x02 :: (e ++ [0x03]) ∧
      (∀ b ∈ e, b ∉ ([0x02, 0x03, 0x06, 0x15] : List Byte)) ∧
      ∃ u p, unescape e = .ok u ∧ stripIdentity c u = .ok p ∧ checksum p = 0

/-- R150, R264: the checks of `parse` in their order, the first that fails being the one reported. `e` stands for the bytes
between the two markers, `p` for the payload without its identity. The number that E_LENGTH carries at steps 4 and 4a is the
model's reading of R250 (log entry 17, DEDUCED). -/
def Obligations.ParseReportsTheFirstFailingCheck : Prop :=
  ∀ (c : Config) (cmd : Cmd),
    (∀ f : List Byte, (¬∃ e, f = 0x06 :: (e ++ [0x03])) → parse c cmd f = .error (.framing f.length)) ∧
    (∀ e x, unescape e = .error x → parse c cmd (0x06 :: (e ++ [0x03])) = .error .escape) ∧
    (∀ e, unescape e = .ok [] → parse c cmd (0x06 :: (e ++ [0x03])) = .error (.length 0)) ∧
    (∀ e u p, unescape e = .ok u → u = identityBytes c ++ p ∨ (c.hasIdentity = true ∧ ∃ y, u = y :: p) →
      (p.length < 2 → parse c cmd (0x06 :: (e ++ [0x03])) = .error (.length p.length)) ∧
      (2 ≤ p.length → checksum p ≠ 0 → parse c cmd (0x06 :: (e ++ [0x03])) = .error (.checksum (checksum p))) ∧
      (∀ op data k, p = op :: (data ++ [k]) → checksum p = 0 →
        (op ≠ (registry c cmd).opcode →
          parse c cmd (0x06 :: (e ++ [0x03])) = .error (.opcode (registry c cmd).opcode op)) ∧
        (op = (registry c cmd).opcode →
          parse c cmd (0x06 :: (e ++ [0x03])) = parseData (registry c cmd).replyKind data)))

/-- R83, R150: a canonically framed reply to a command gives back exactly what its parse routine makes of its data. -/
def Obligations.ParseRecoversAFramedReply : Prop :=
  ∀ (c : Config) (cmd : Cmd) (data : List Byte),
    parse c cmd (0x06 :: (escape (identityBytes c ++
      ((registry c cmd).opcode :: (data ++ [checksum ((registry c cmd).opcode :: data)]))) ++ [0x03])) =
      parseData (registry c cmd).replyKind data

/-- R153: the first unescaped byte of a reply is dropped, whatever it is: the reply parses as the same bytes without it would
where no identity is configured. -/
def Obligations.ReplyIdentityIsNotCompared : Prop :=
  ∀ (c : Config) (cmd : Cmd) (x : Byte) (p e g : List Byte), c.hasIdentity = true →
    unescape e = .ok (x :: p) → unescape g = .ok p →
    parse c cmd (0x06 :: (e ++ [0x03])) = parse { c with hasIdentity := false } cmd (0x06 :: (g ++ [0x03]))

/-- R157: the fields of a status reply, by their offsets; fewer than ten data bytes are E_LENGTH. That E_LENGTH carries the
number of data bytes is the model's reading of R250 (log entry 17, DEDUCED). -/
def Obligations.StatusReplyFields : Prop :=
  ∀ data : List Byte,
    (10 ≤ data.length → ∃ s : StatusResponse, parseStatus data = .ok (.status s) ∧
      decodeInt16 (data.take 2) = .ok s.pan ∧ decodeInt16 ((data.drop 2).take 2) = .ok s.tilt ∧
      data[4]? = some s.panStatus ∧ data[5]? = some s.tiltStatus ∧ data[6]? = some s.generalStatus ∧
      data[7]? = some s.zoom ∧ data[8]? = some s.focus ∧ data[9]? = some s.cameraCount ∧
      s.cameraData = if 10 < data.length then some (data.drop 10) else none) ∧
    (data.length < 10 → parseStatus data = .error (.length data.length))

/-- R165: a timeout reply has exactly one data byte, of which bits 6..0 are the value; any other number of data bytes is
E_LENGTH. That E_LENGTH carries that number is the model's reading of R250 (log entry 17, DEDUCED). -/
def Obligations.TimeoutReplyValue : Prop :=
  (∀ b : Byte, ∃ t, parseTimeout [b] = .ok (.timeout t) ∧ t.toNat = b.toNat % 128) ∧
  (∀ data : List Byte, data.length ≠ 1 → parseTimeout data = .error (.length data.length))

/-- R162: under HOME_REPLY = NONE the `home` reply has no data, and data is E_LENGTH; under STATUS it is a status reply. That
E_LENGTH carries the number of data bytes is the model's reading of R250 (log entry 17, DEDUCED). -/
def Obligations.HomeReplyByConfiguration : Prop :=
  ∀ (c : Config) (data : List Byte),
    (c.homeReply = .none → parseData (registry c .home).replyKind [] = .ok .nothing ∧
      (data ≠ [] → parseData (registry c .home).replyKind data = .error (.length data.length))) ∧
    (c.homeReply = .status → parseData (registry c .home).replyKind data = parseStatus data)

/-! ### Decoding and encoding -/

/-- Decoding the encoding of a well-formed instruction gives the instruction back (R88, R100, R107). For a host operation the
encoding is a record with operands of ARG_BITS bits, and every such record is a well-formed instruction (R8, R100). -/
def Obligations.DecodeInvertsEncode : Prop :=
  ∀ c : Config,
    (∀ i : Instr, WellFormed c i = true → decode (encode i) = .ok i ∧ ∀ r, encode i = .record r → r.fits c.argBits = true) ∧
    (∀ r : HostRecord, r.fits c.argBits = true → ∃ i, decode (.record r) = .ok i ∧ WellFormed c i = true)

/-- A monitor that decodes an assembled outbound frame reads the wire command it was assembled from (R104, R146). -/
def Obligations.MonitorReadsAssembledFrames : Prop :=
  ∀ (c : Config) (i : Instr) (bs f : List Byte) (cmd : Cmd) (a : Args), WellFormed c i = true → encode i = .payload bs →
    firstCmd i = some (cmd, a) → assemble c cmd a = .ok (some f) → decodeFrame c f = .ok i

/-- Words of the table, written out from R88, R97, R100 (sanity). That a word of 16 bits is followed by zero data bytes, and
that a word of 8 bits is the `op` of a record, is the model's reading of the table (log entry 9, DESIGN CHOICE). -/
def Obligations.TableWordsDecode : Prop :=
  decodeTableWord 16 0x3100 = some .getStatus ∧ decodeTableWord 16 0x3101 = some .faultReset ∧
  decodeTableWord 16 0x3500 = some .home ∧ decodeTableWord 16 0x9680 = some .getCommunicationTimeout ∧
  decodeTableWord 16 0x961E = some (.setCommunicationTimeout 30) ∧
  decodePayload [0x33, 0x84, 0x03, 0x3E, 0xFE] = .ok (.moveAbsolute (some 900) (some (-450))) ∧
  decodePayload [0x34, 0x64, 0x00, 0x00, 0x00] = .ok (.moveDelta (some 100) none) ∧
  decodeTableWord 8 0x1 = some .opGetStatus ∧ decodeTableWord 8 0xF = some (.opUnsupported 0xF) ∧
  decodeTableWord 16 0x3200 = none

/-- R305: an explicit sentinel operand does what the absent operand does, on either axis, as a host operation and as a wire
command; and the two wire commands have the same encoding. -/
def Obligations.SentinelOperandIsTheAbsentOperand : Prop :=
  ∀ (o : Option Int) (s : State),
    exec (.opMoveAbsolute (some 9999) o) s = exec (.opMoveAbsolute none o) s ∧
    exec (.opMoveAbsolute o (some 9999)) s = exec (.opMoveAbsolute o none) s ∧
    exec (.opMoveDelta (some 0) o) s = exec (.opMoveDelta none o) s ∧
    exec (.opMoveDelta o (some 0)) s = exec (.opMoveDelta o none) s ∧
    exec (.moveAbsolute (some 9999) o) s = exec (.moveAbsolute none o) s ∧
    exec (.moveAbsolute o (some 9999)) s = exec (.moveAbsolute o none) s ∧
    exec (.moveDelta (some 0) o) s = exec (.moveDelta none o) s ∧
    exec (.moveDelta o (some 0)) s = exec (.moveDelta o none) s ∧
    encode (.moveAbsolute (some 9999) o) = encode (.moveAbsolute none o) ∧
    encode (.moveAbsolute o (some 9999)) = encode (.moveAbsolute o none) ∧
    encode (.moveDelta (some 0) o) = encode (.moveDelta none o) ∧
    encode (.moveDelta o (some 0)) = encode (.moveDelta o none)

/-! ### The wire commands: each completes by starting its transaction (R181) -/

/-- R158, R159, R162, R163: the commands without operands always start, with the data bytes the table gives them. -/
def Obligations.PlainCommandsStart : Prop :=
  ∀ s : State,
    exec .getStatus s = .next (sent .getStatus (frameOf s.cfg [0x31, 0, 0, 0, 0, 0]) s) ∧
    exec .faultReset s = .next (sent .faultReset (frameOf s.cfg [0x31, 1, 0, 0, 0, 0]) s) ∧
    exec .home s = .next (sent .home (frameOf s.cfg [0x35]) s) ∧
    exec .getCommunicationTimeout s = .next (sent .getCommunicationTimeout (frameOf s.cfg [0x96, 0x80]) s)

/-- R160, R161: a move command whose operands encode starts, pan before tilt, the sentinel standing for an absent axis. -/
def Obligations.MoveCommandsStart : Prop :=
  ∀ (s : State) (pan tilt : Option Int) (p t : List Byte),
    (encodeInt16 (pan.getD 9999) = .ok p → encodeInt16 (tilt.getD 9999) = .ok t →
      exec (.moveAbsolute pan tilt) s = .next (sent .moveAbsolute (frameOf s.cfg (0x33 :: (p ++ t))) s)) ∧
    (encodeInt16 (pan.getD 0) = .ok p → encodeInt16 (tilt.getD 0) = .ok t →
      exec (.moveDelta pan tilt) s = .next (sent .moveDelta (frameOf s.cfg (0x34 :: (p ++ t))) s))

/-- R160, R161, R255: a move command with an operand out of range takes E_RANGE before any byte is written; when both are out
of range, pan is reported. -/
def Obligations.MoveCommandsFaultOutOfRange : Prop :=
  ∀ (s : State) (pan tilt : Option Int) (v : Int), (v < -32768 ∨ 32767 < v) →
    (pan = some v ∨ (tilt = some v ∧ ∀ w, pan = some w → -32768 ≤ w ∧ w ≤ 32767)) →
    exec (.moveAbsolute pan tilt) s =
      .next (ended [] (.fault (.range v)) { s with faultCode := 5, faultExp := 0, faultAct := 0 }) ∧
    exec (.moveDelta pan tilt) s =
      .next (ended [] (.fault (.range v)) { s with faultCode := 5, faultExp := 0, faultAct := 0 })

/-- R164: `set_communication_timeout` starts with the value as its data byte from 0 to 120, and outside writes no frame and
warns the caller. That the rejection of the command alone is handled as SET_TMO's is DEDUCED (log entry 11). -/
def Obligations.SetTimeoutStartsOrIsRejected : Prop :=
  ∀ (s : State) (t : Int),
    (0 ≤ t → t ≤ 120 → ∃ b : Byte, (b.toNat : Int) = t ∧
      exec (.setCommunicationTimeout t) s =
        .next (sent .setCommunicationTimeout (frameOf s.cfg [0x96, b]) s)) ∧
    (t < 0 ∨ 120 < t → exec (.setCommunicationTimeout t) s =
      .next (ended [.tmoRange t] .rejected { s with faultCode := 0, faultExp := 0, faultAct := 0 }))

/-! ### The host operations: the step that accepts each -/

/-- R210, R213, R215, R221, R223, R226: the operations without operands always start their first command. -/
def Obligations.PlainOperationsStart : Prop :=
  ∀ s : State,
    exec .opStartup s = .next (sent .getStatus (frameOf s.cfg [0x31, 0, 0, 0, 0, 0])
      { s with op := 0x0, stage := .first, startupN := 1 }) ∧
    exec .opGetStatus s = .next (sent .getStatus (frameOf s.cfg [0x31, 0, 0, 0, 0, 0])
      { s with op := 0x1, stage := .first }) ∧
    exec .opFaultReset s = .next (sent .faultReset (frameOf s.cfg [0x31, 1, 0, 0, 0, 0])
      { s with op := 0x2, stage := .first }) ∧
    exec .opHome s = .next (sent .home (frameOf s.cfg [0x35]) { s with op := 0x5, stage := .first }) ∧
    exec .opGetTmo s = .next (sent .getCommunicationTimeout (frameOf s.cfg [0x96, 0x80])
      { s with op := 0x6, stage := .first })

/-- R214, R215: a move operation whose operands encode starts its move command. -/
def Obligations.MoveOperationsStart : Prop :=
  ∀ (s : State) (pan tilt : Option Int) (p t : List Byte),
    (encodeInt16 (pan.getD 9999) = .ok p → encodeInt16 (tilt.getD 9999) = .ok t →
      exec (.opMoveAbsolute pan tilt) s = .next (sent .moveAbsolute (frameOf s.cfg (0x33 :: (p ++ t)))
        { s with op := 0x3, stage := .first })) ∧
    (encodeInt16 (pan.getD 0) = .ok p → encodeInt16 (tilt.getD 0) = .ok t →
      exec (.opMoveDelta pan tilt) s = .next (sent .moveDelta (frameOf s.cfg (0x34 :: (p ++ t)))
        { s with op := 0x4, stage := .first }))

/-- R215, R255: a move operation with an operand out of range finishes with FAULT(E_RANGE) and nothing is sent. -/
def Obligations.MoveOperationsFaultOutOfRange : Prop :=
  ∀ (s : State) (pan tilt : Option Int) (v : Int), (v < -32768 ∨ 32767 < v) →
    (pan = some v ∨ (tilt = some v ∧ ∀ w, pan = some w → -32768 ≤ w ∧ w ≤ 32767)) →
    exec (.opMoveAbsolute pan tilt) s = .next (ended [] (.fault (.range v))
      { s with op := 0x3, stage := .first, faultCode := 5, faultExp := 0, faultAct := 0 }) ∧
    exec (.opMoveDelta pan tilt) s = .next (ended [] (.fault (.range v))
      { s with op := 0x4, stage := .first, faultCode := 5, faultExp := 0, faultAct := 0 })

/-- R224, acceptance: SET_TMO from 0 to 120 starts the set command and keeps the requested value; outside, the host is
notified, the result is REJECTED, and no frame is written. -/
def Obligations.SetTmoStartsOrIsRejected : Prop :=
  ∀ (s : State) (v : Int),
    (0 ≤ v → v ≤ 120 → ∃ (b : Byte) (q : BitVec 7), (b.toNat : Int) = v ∧ (q.toNat : Int) = v ∧
      exec (.opSetTmo v) s = .next (sent .setCommunicationTimeout (frameOf s.cfg [0x96, b])
        { s with op := 0x7, stage := .first, reqTmo := q })) ∧
    (v < 0 ∨ 120 < v → exec (.opSetTmo v) s = .next (ended [.tmoRange v] .rejected
      { s with op := 0x7, stage := .first, faultCode := 0, faultExp := 0, faultAct := 0 }))

/-- R229: an unassigned code raises E_UNSUPPORTED at once, writes nothing, and finishes with FAULT(E_UNSUPPORTED, op). -/
def Obligations.UnassignedCodesFault : Prop :=
  ∀ (s : State) (code : BitVec 4), 8 ≤ code.toNat →
    ∃ t, exec (.opUnsupported code) s = .next t ∧ t.phase = .idle ∧ t.faultCode = 4 ∧ t.txStream = s.txStream ∧
      t.log = s.log ++ [.result (.fault (.unsupported code))] ∧ t.txBuf = s.txBuf ∧ t.rxBuf = s.rxBuf ∧
      t.genRegs = s.genRegs

/-! ### Frames -/

/-- What no instruction changes when `exec` gives a next state: the configuration, the general registers (R24), `rx_buf`, the
inputs, the log so far; and every byte of `tx_buf` outside the frame the instruction sends, which starts at address 0 (R181). -/
def Obligations.ExecChangesOnlyItsOwnState : Prop :=
  ∀ (i : Instr) (s t : State), exec i s = .next t →
    t.cfg = s.cfg ∧ t.genRegs = s.genRegs ∧ t.rxBuf = s.rxBuf ∧ t.cmd = s.cmd ∧ t.rxs = s.rxs ∧
    t.rxMore = s.rxMore ∧ t.resetIn = s.resetIn ∧ t.issue = s.issue ∧ (∃ l, t.log = s.log ++ l) ∧
    (∀ a, (∀ f, frameSent s.cfg i = some f → f.length ≤ a) → t.txBuf.read a = s.txBuf.read a) ∧
    (i ≠ .opStartup → t.startupN = s.startupN) ∧
    ((∀ v, i ≠ .opSetTmo v) → t.reqTmo = s.reqTmo) ∧
    (frameSent s.cfg i = none → t.txBuf = s.txBuf ∧ t.txLen = s.txLen ∧ t.rxLen = s.rxLen ∧ t.curCmd = s.curCmd ∧
      t.attempt = s.attempt ∧ t.win = s.win)

/-- R28, R181: an instruction that sends a frame leaves exactly that frame in `tx_buf`, writes it once, and waits for the
acknowledgment with the fault registers clear. -/
def Obligations.ExecStoresAndWritesItsFrame : Prop :=
  ∀ (i : Instr) (s : State) (f : List Byte), s.txBuf.wf = true → frameSent s.cfg i = some f →
    ∃ t, exec i s = .next t ∧ frameIn 18 t.txBuf t.txLen = some f ∧ t.log = s.log ++ [.txWrite f] ∧
      t.phase = .ackWait ∧ t.attempt = 1 ∧ t.win = 0 ∧ t.rxLen = 0 ∧
      t.faultCode = 0 ∧ t.faultExp = 0 ∧ t.faultAct = 0

/-! ### The step -/

/-- R210: the idle engine takes the first record of `cmd`; when it is the encoding of a well-formed instruction, the step is
that instruction's meaning on the state with the record taken. -/
def Obligations.StepRunsTheAcceptedOperation : Prop :=
  ∀ (s : State) (i : Instr) (r : HostRecord) (q : List HostRecord), s.phase = .idle → s.resetIn = false → s.issue = none →
    s.cmd = r :: q → decode (.record r) = .ok i → WellFormed s.cfg i = true →
    step s = exec i { s with cmd := q, log := s.log ++ [.accept r] }

/-- The model's own issue slot (log entry 8, DESIGN CHOICE): a wire command placed there is run by the next step of the idle
engine, as the first command of its host operation. -/
def Obligations.StepRunsTheIssuedCommand : Prop :=
  ∀ (s : State) (i : Instr) (bs : List Byte), s.phase = .idle → s.resetIn = false → s.issue = some bs →
    decode (.payload bs) = .ok i → WellFormed s.cfg i = true →
    step s = exec i (enterWire i { s with issue := none })

/-- R291, R26, R56: with nothing to take, the engine stays as it is, idle or suspended on its read: only the transport may move,
and list answers for the steps to come. That there are such steps is the model's form of waiting and of the transport's answers
(log entries 6 and 23, DESIGN CHOICE). -/
def Obligations.NothingHappensWithoutAnEvent : Prop :=
  ∀ s : State, s.resetIn = false →
    (s.phase = .idle → s.issue = none → s.cmd = [] → step s = .next s) ∧
    (s.phase ≠ .idle → s.rxs = [] → (s.rxMore = .stop → step s = .next s) ∧
      (∀ a l, s.rxMore = .cycle a l → step s = .next { s with rxs := a :: l }) ∧
      (∀ n, s.rxMore = .free n → ∃ a, step s = .next { s with rxs := [a], rxMore := .free (n + 1) }))

/-- R27, the whole table. From IDLE: to ACKWAIT where one frame has been written, to IDLE where none has, to BODY never. From
ACKWAIT: to BODY on the ACK byte alone, to ACKWAIT on no ACK byte, to IDLE only on the no-response of a last resend, under
STARTUP only if no further attempt follows. From BODY: it stays on a byte that does not end the frame, and is left only where
the frame ends, to ACKWAIT with the first frame of another transaction. -/
def Obligations.PhaseChangesOnlyAsTheRulesSay : Prop :=
  ∀ s t : State, s.resetIn = false → step s = .next t →
    (s.phase = .idle → t.phase ≠ .body ∧ (t.phase = .ackWait → ∃ f, t.frames = s.frames ++ [f]) ∧
      (t.phase = .idle → t.frames = s.frames)) ∧
    (s.phase = .ackWait → ∀ a q, s.rxs = a :: q →
      (t.phase = .body ↔ a = some 0x06) ∧
      (t.phase = .idle → (a ≠ none → 10 ≤ s.win + 1) ∧ (∃ n, s.cfg.maxSendAttempts = some n ∧ n ≤ s.attempt) ∧
        (s.op = 0x0 → ∃ m, s.cfg.startupMaxAttempts = some m ∧ m ≤ s.startupN))) ∧
    (s.phase = .body → ∀ a q, s.rxs = a :: q →
      (t.phase ≠ .body ↔ a = none ∨ a = some 0x03 ∨ s.rxLen + 1 = s.cfg.rxBufLen) ∧
      (t.phase = .ackWait → ∃ f, t.frames = s.frames ++ [f]) ∧ (t.phase = .idle → t.frames = s.frames)) ∧
    (s.phase ≠ .idle → s.rxs = [] → t.phase = s.phase)

/-- R26, R56, R62: a step of a busy engine consumes exactly one answer, first thing, and reads no other; the
host's records wait. -/
def Obligations.OneReadPerStep : Prop :=
  ∀ (s t : State) (a : Option Byte) (q : List (Option Byte)), s.resetIn = false → s.phase ≠ .idle → s.rxs = a :: q →
    step s = .next t → t.rxs = q ∧ t.rxMore = s.rxMore ∧ t.cmd = s.cmd ∧ ∃ l, t.log = s.log ++ .rxRead a :: l ∧ ∀ x ∈ l, isRead x = false

/-- R211, R262: a step that does anything emits at most one result record; it emits one exactly when it leaves the engine
idle, as its last action, after all of its notifications. -/
def Obligations.OneResultExactlyWhenIdle : Prop :=
  ∀ s t : State, s.resetIn = false → (s.phase = .idle → s.issue ≠ none ∨ s.cmd ≠ []) → step s = .next t →
    (t.phase = .idle → ∃ l r, t.log = s.log ++ l ++ [.result r] ∧ ∀ x ∈ l, isResult x = false) ∧
    (t.phase ≠ .idle → ∃ l, t.log = s.log ++ l ∧ ∀ x ∈ l, isResult x = false)

/-- R184: the ACK byte, at any read of the window, opens the frame. -/
def Obligations.AckByteOpensTheFrame : Prop :=
  ∀ (s : State) (q : List (Option Byte)), s.resetIn = false → s.phase = .ackWait → s.rxs = some 0x06 :: q →
    0 < s.cfg.rxBufLen →
    step s = .next { s with
      rxBuf := s.rxBuf.write 0 0x06, rxLen := 1, phase := .body, rxs := q, log := s.log ++ [.rxRead (some 0x06)] }

/-- R183: any other byte is discarded and counted while the window lasts. -/
def Obligations.OtherBytesAreDiscardedAndCounted : Prop :=
  ∀ (s : State) (b : Byte) (q : List (Option Byte)), s.resetIn = false → s.phase = .ackWait → s.rxs = some b :: q →
    b ≠ 0x06 → s.win + 1 < 10 →
    step s = .next { s with win := s.win + 1, rxs := q, log := s.log ++ [.rxRead (some b)] }

/-- R185: a read timeout, or the tenth byte that is not ACK, resends the identical frame and opens a new window, when the
bound of R186 allows it. -/
def Obligations.NoResponseResendsTheIdenticalFrame : Prop :=
  ∀ (s : State) (a : Option Byte) (q : List (Option Byte)) (f : List Byte), s.resetIn = false → s.phase = .ackWait →
    s.rxs = a :: q → a ≠ some 0x06 → (a ≠ none → s.win + 1 = 10) → frameIn 18 s.txBuf s.txLen = some f →
    (∀ n, s.cfg.maxSendAttempts = some n → s.attempt < n) →
    step s = .next { s with
      attempt := s.attempt + 1, rxLen := 0, win := 0, rxs := q, log := s.log ++ [.rxRead a, .txWrite f] }

/-- R186, R258: the no-response of attempt N under MAX_SEND_ATTEMPTS = some N is E_NO_RESPONSE, which goes to the fault handler
under every operation, STARTUP among them; outside STARTUP the operation ends with it and no frame is written. What `win` then
holds is not stated (log entry 16). -/
def Obligations.LastNoResponseIsAFault : Prop :=
  ∀ (s : State) (a : Option Byte) (q : List (Option Byte)) (n : Nat), s.resetIn = false → s.phase = .ackWait →
    s.rxs = a :: q → a ≠ some 0x06 → (a ≠ none → s.win + 1 = 10) → s.cfg.maxSendAttempts = some n → n ≤ s.attempt →
    ∃ (w : Nat) (u : State), u = { s with win := w, rxs := q, log := s.log ++ [.rxRead a] } ∧
      step s = .next (onFault (.noResponse s.attempt) u) ∧
      (s.op ≠ 0x0 → step s = .next (ended [] (.fault (.noResponse s.attempt)) { u with faultCode := 8 }))

/-- R187: a body byte that does not end the frame is accumulated, ACK and STX among them. -/
def Obligations.BodyBytesAreAccumulated : Prop :=
  ∀ (s : State) (b : Byte) (q : List (Option Byte)), s.resetIn = false → s.phase = .body → s.rxs = some b :: q →
    b ≠ 0x03 → s.rxLen + 1 < s.cfg.rxBufLen →
    step s = .next { s with
      rxBuf := s.rxBuf.write s.rxLen b, rxLen := s.rxLen + 1, rxs := q, log := s.log ++ [.rxRead (some b)] }

/-- R187, R189: the first raw ETX, whatever stands before it, ends the frame; the accumulated bytes with it go to `parse`
under the running command, a fault goes to the handler, and a typed result updates the registers before `Continue`. -/
def Obligations.EtxHandsTheFrameToParse : Prop :=
  ∀ (s : State) (q : List (Option Byte)), s.resetIn = false → s.phase = .body → s.rxs = some 0x03 :: q →
    s.rxBuf.wf = true → s.rxLen < s.cfg.rxBufLen →
    ∃ u, u = { s with
        rxBuf := s.rxBuf.write s.rxLen 0x03, rxLen := s.rxLen + 1, rxs := q, log := s.log ++ [.rxRead (some 0x03)] } ∧
      (∀ e, parse s.cfg s.curCmd (s.rxBuf.readSeq 0 s.rxLen ++ [0x03]) = .error e → step s = .next (onFault e u)) ∧
      (∀ r, parse s.cfg s.curCmd (s.rxBuf.readSeq 0 s.rxLen ++ [0x03]) = .ok r → step s = continueOp r (updateFor r u))

/-- R188: the byte that fills `rx_buf` without being ETX ends the read with E_FRAMING, which goes to the fault handler under
every operation, STARTUP among them; outside STARTUP the operation ends with it. The rest of the frame stays in the backlog. -/
def Obligations.FullBufferIsAFramingFault : Prop :=
  ∀ (s : State) (b : Byte) (q : List (Option Byte)), s.resetIn = false → s.phase = .body → s.rxs = some b :: q →
    b ≠ 0x03 → s.rxLen + 1 = s.cfg.rxBufLen → s.rxBuf.wf = true →
    ∃ u, u = { s with
        rxBuf := s.rxBuf.write s.rxLen b, rxLen := s.cfg.rxBufLen, rxs := q, log := s.log ++ [.rxRead (some b)] } ∧
      step s = .next (onFault (.framing s.cfg.rxBufLen) u) ∧
      (s.op ≠ 0x0 → step s = .next (ended [] (.fault (.framing s.cfg.rxBufLen)) { u with faultCode := 1 }))

/-- R187: a read timeout inside a frame hands it to `parse` without its ETX: E_FRAMING, which goes to the fault handler under
every operation, STARTUP among them; outside STARTUP the operation ends with it, and the frame is not resent. -/
def Obligations.BodyTimeoutIsAFramingFault : Prop :=
  ∀ (s : State) (q : List (Option Byte)), s.Inv → s.resetIn = false → s.phase = .body → s.rxs = none :: q →
    ∃ u, u = { s with rxs := q, log := s.log ++ [.rxRead none] } ∧
      step s = .next (onFault (.framing s.rxLen) u) ∧
      (s.op ≠ 0x0 → step s = .next (ended [] (.fault (.framing s.rxLen)) { u with faultCode := 1 }))

/-! ### Completed transactions -/

/-- R190: a status reply writes exactly one pair of general registers, both valid, by its DES flag. -/
def Obligations.StatusReplyWritesOnePair : Prop :=
  ∀ (s : State) (r : StatusResponse),
    (r.generalStatus.getLsbD s.cfg.layout.gsDes = true →
      updateRuntime r s = { s with destPan := ⟨true, r.pan⟩, destTilt := ⟨true, r.tilt⟩ }) ∧
    (r.generalStatus.getLsbD s.cfg.layout.gsDes = false →
      updateRuntime r s = { s with curPan := ⟨true, r.pan⟩, curTilt := ⟨true, r.tilt⟩ })

/-- R24: a step changes a general register only where it completes a transaction whose frame parses to a status response, and
then the four are what R190 makes of them. -/
def Obligations.GeneralRegistersHaveOneWriter : Prop :=
  ∀ s t : State, s.resetIn = false → step s = .next t → t.genRegs ≠ s.genRegs →
    s.phase = .body ∧ ∃ f r, parse s.cfg s.curCmd f = .ok (.status r) ∧ t.genRegs = (updateRuntime r s).genRegs ∧
      ((∃ q, s.rxs = none :: q ∧ f = s.rxBuf.readSeq 0 s.rxLen) ∨
        ∃ b q, s.rxs = some b :: q ∧ f = (s.rxBuf.write s.rxLen b).readSeq 0 (s.rxLen + 1))

/-- R216, R217: the two lists hold exactly the active flags, pan before tilt; within an axis TO, DE, OL for hard faults, and
ascending bit position for soft faults, each flag once. Where a layout places the limit flags in the order R216 writes them, as
the default does, the soft list is R216's; that R217's order governs for the other layouts is DEDUCED (log entry 22). -/
def Obligations.ClassifyListsTheActiveFlags : Prop :=
  ∀ (c : Config) (ps ts : Byte),
    classifyHard c ps ts =
      ([(Axis.pan, HardFlag.timeout), (.pan, .directionError), (.pan, .overload),
        (.tilt, .timeout), (.tilt, .directionError), (.tilt, .overload)] : List (Axis × HardFlag)).filter
        (fun x => (match x.1 with | .pan => ps | .tilt => ts).getLsbD
          (match x.2 with | .timeout => c.layout.axTo | .directionError => c.layout.axDe | .overload => c.layout.axOl)) ∧
    ∀ pos : SoftFlag → Fin 8, pos .hardLimitA = c.layout.axHardLimitA → pos .hardLimitB = c.layout.axHardLimitB →
      pos .softLimitA = c.layout.axSoftLimitA → pos .softLimitB = c.layout.axSoftLimitB →
      (pos .hardLimitA < pos .hardLimitB → pos .hardLimitB < pos .softLimitA → pos .softLimitA < pos .softLimitB →
        classifySoft c ps ts =
          ([(Axis.pan, SoftFlag.hardLimitA), (.pan, .hardLimitB), (.pan, .softLimitA), (.pan, .softLimitB),
            (.tilt, .hardLimitA), (.tilt, .hardLimitB), (.tilt, .softLimitA), (.tilt, .softLimitB)] :
              List (Axis × SoftFlag)).filter
            (fun x => (match x.1 with | .pan => ps | .tilt => ts).getLsbD (pos x.2))) ∧
      ∃ p t : List SoftFlag, classifySoft c ps ts = p.map (fun f => (Axis.pan, f)) ++ t.map (fun f => (Axis.tilt, f)) ∧
        (∀ f, f ∈ p ↔ ps.getLsbD (pos f) = true) ∧ p.Nodup ∧ p.Pairwise (fun f g => pos f ≤ pos g) ∧
        (∀ f, f ∈ t ↔ ts.getLsbD (pos f) = true) ∧ t.Nodup ∧ t.Pairwise (fun f g => pos f ≤ pos g)

/-- R102 (d), R216: in a configuration R8 allows, the resolver-fault bit of either axis byte changes neither list. -/
def Obligations.ResolverFaultIsIgnored : Prop :=
  ∀ (c : Config) (ps ts : Byte), c.valid = true →
    classifyHard c (ps ^^^ bitByte c.layout.axResolverFault) ts = classifyHard c ps ts ∧
    classifyHard c ps (ts ^^^ bitByte c.layout.axResolverFault) = classifyHard c ps ts ∧
    classifySoft c (ps ^^^ bitByte c.layout.axResolverFault) ts = classifySoft c ps ts ∧
    classifySoft c ps (ts ^^^ bitByte c.layout.axResolverFault) = classifySoft c ps ts

/-- R215: the content of a move's own reply is not examined: whatever it is, the operation goes on to its first poll. -/
def Obligations.MoveReplyStartsThePolls : Prop :=
  ∀ (s : State) (r : Reply), isMoveOp s.op = true → s.stage = .first → (r = .nothing ∨ ∃ x, r = .status x) →
    continueOp r s = .next (sent .getStatus (frameOf s.cfg [0x31, 0, 0, 0, 0, 0]) { s with stage := .second })

/-- R219: a poll is judged by its faults first, then by EXEC: (a) an aborting fault ends the move as unsuccessful with one
notification per active fault, hard ones first, whatever EXEC is; (b) else EXEC clear ends it as successful; (c) else the
engine polls again. -/
def Obligations.MovePollEndsByFaultsThenExec : Prop :=
  ∀ (s : State) (r : StatusResponse) (hard : List (Axis × HardFlag)) (soft : List (Axis × SoftFlag)),
    isMoveOp s.op = true → s.stage = .second →
    hard = classifyHard s.cfg r.panStatus r.tiltStatus → soft = classifySoft s.cfg r.panStatus r.tiltStatus →
    (hard ≠ [] ∨ (s.cfg.softFaultAborts = true ∧ soft ≠ []) →
      continueOp (.status r) s = .next (ended
        (hard.map (fun x => Notification.hardFault x.1 x.2) ++ soft.map (fun x => Notification.softFault x.1 x.2))
        (.moveDone false r hard soft) s)) ∧
    (hard = [] → (s.cfg.softFaultAborts = false ∨ soft = []) →
      (r.generalStatus.getLsbD s.cfg.layout.gsExec = false →
        continueOp (.status r) s = .next (ended [] (.moveDone true r [] soft) s)) ∧
      (r.generalStatus.getLsbD s.cfg.layout.gsExec = true →
        continueOp (.status r) s = .next (sent .getStatus (frameOf s.cfg [0x31, 0, 0, 0, 0, 0]) s)))

/-- R221: FAULT_RESET succeeds exactly when no hard fault is left, and otherwise notifies once with the hard list. -/
def Obligations.FaultResetReportsHardFaults : Prop :=
  ∀ (s : State) (r : StatusResponse) (hard : List (Axis × HardFlag)), s.op = 0x2 → s.stage = .first →
    hard = classifyHard s.cfg r.panStatus r.tiltStatus →
    (hard = [] → continueOp (.status r) s = .next (ended [] (.okReset true r []) s)) ∧
    (hard ≠ [] → continueOp (.status r) s = .next (ended [.resetFailed hard] (.okReset false r hard) s))

/-- R224, after acceptance: the set command's own echo is discarded and the read-back command follows; the value read back is
compared with the request, a difference is notified, and the value read back is the result. -/
def Obligations.SetTmoComparesTheReadBack : Prop :=
  ∀ (s : State) (t : BitVec 7), s.op = 0x7 →
    (s.stage = .first → continueOp (.timeout t) s =
      .next (sent .getCommunicationTimeout (frameOf s.cfg [0x96, 0x80]) { s with stage := .second })) ∧
    (s.stage = .second → t = s.reqTmo → continueOp (.timeout t) s = .next (ended [] (.okTmo t) s)) ∧
    (s.stage = .second → t ≠ s.reqTmo →
      continueOp (.timeout t) s = .next (ended [.tmoMismatch s.reqTmo t] (.okTmo t) s))

/-- R213, R223, R226: STARTUP and GET_STATUS hand the status response over unclassified, GET_TMO the timeout, without a
notification. -/
def Obligations.PlainOperationsReturnTheReply : Prop :=
  ∀ s : State, s.stage = .first →
    (∀ r, s.op = 0x0 ∨ s.op = 0x1 → continueOp (.status r) s = .next (ended [] (.okStatus r) s)) ∧
    (∀ t, s.op = 0x6 → continueOp (.timeout t) s = .next (ended [] (.okTmo t) s))

/-! ### Faults and reset -/

/-- R266, R267: a fatal fault that STARTUP does not catch records its code of R250, for E_OPCODE both opcodes, and ends the
operation with its FAULT result; nothing else changes. -/
def Obligations.FatalFaultEndsTheOperation : Prop :=
  ∀ (s : State) (e : Raise), s.op ≠ 0x0 ∨ tolerated e = false →
    (∀ x a, e = .opcode x a → onFault e s = ended [] (.fault e) { s with faultCode := 3, faultExp := x, faultAct := a }) ∧
    ((∀ x a, e ≠ .opcode x a) → onFault e s = ended [] (.fault e) { s with
      faultCode := match e with
        | .framing _ => 1 | .checksum _ => 2 | .opcode _ _ => 3 | .unsupported _ => 4 | .range _ => 5 | .escape => 6
        | .length _ => 7 | .noResponse _ => 8 | .startup _ _ => 9 })

/-- R226, R227: under STARTUP every fault a `get_status` transaction can raise is tolerated: another attempt is counted and
begun; with the attempts used up the operation ends with E_STARTUP and the last fault's code, `k` of R250. That `fault_code` then still
holds the last fault's code is the model's choice (log entry 12, DEDUCED) and is not stated. -/
def Obligations.StartupRetriesToleratedFaults : Prop :=
  ∀ (s : State) (e : Raise) (k : BitVec 4), s.op = 0x0 →
    (((∃ n, e = .framing n) ∧ k = 1) ∨ ((∃ x, e = .checksum x) ∧ k = 2) ∨ ((∃ x a, e = .opcode x a) ∧ k = 3) ∨
      (e = .escape ∧ k = 6) ∨ ((∃ n, e = .length n) ∧ k = 7) ∨ ((∃ n, e = .noResponse n) ∧ k = 8)) →
    ((∀ m, s.cfg.startupMaxAttempts = some m → s.startupN < m) →
      onFault e s = sent .getStatus (frameOf s.cfg [0x31, 0, 0, 0, 0, 0]) { s with startupN := s.startupN + 1 }) ∧
    (∀ m, s.cfg.startupMaxAttempts = some m → m ≤ s.startupN →
      (onFault e s).phase = .idle ∧ (onFault e s).genRegs = s.genRegs ∧
      (onFault e s).log = s.log ++ [.result (.fault (.startup s.startupN k))])

/-- R290: reset leaves the four general registers `unset`, the sequencer idle, both buffer lengths zero, the fault registers
zero, and nothing emitted on any channel. -/
def Obligations.ResetValues : Prop :=
  State.reset.curPan.valid = false ∧ State.reset.curTilt.valid = false ∧ State.reset.destPan.valid = false ∧
  State.reset.destTilt.valid = false ∧ State.reset.phase = .idle ∧ State.reset.txLen = 0 ∧ State.reset.rxLen = 0 ∧
  State.reset.faultCode = 0 ∧ State.reset.faultExp = 0 ∧ State.reset.faultAct = 0 ∧ State.reset.log = []

/-- R292: reset in any state abandons what runs: idle, registers as R290 says, no result and no notification, the frames
written stay written, the rx backlog and the configuration stay. The input is taken before anything else (log entry 7). -/
def Obligations.ResetAbandonsTheOperation : Prop :=
  ∀ s : State, s.resetIn = true → ∃ t, step s = .next t ∧ t.phase = .idle ∧ t.log = s.log ∧ t.rxs = s.rxs ∧
    t.rxMore = s.rxMore ∧
    t.cfg = s.cfg ∧ t.cmd = s.cmd ∧ t.txLen = 0 ∧ t.rxLen = 0 ∧ t.faultCode = 0 ∧ t.faultExp = 0 ∧ t.faultAct = 0 ∧
    t.curPan.valid = false ∧ t.curTilt.valid = false ∧ t.destPan.valid = false ∧ t.destTilt.valid = false

/-! ### Every step -/

/-- R22: no step changes the configuration record. -/
def Obligations.ConfigurationIsReadOnly : Prop :=
  ∀ s t : State, step s = .next t → t.cfg = s.cfg

/-- The invariant of the engine holds at reset. -/
def Obligations.ResetMeetsTheInvariant : Prop := State.reset.Inv

/-- Every step keeps the invariant of the engine (R8, R25, R50 to R52, R100, R101, R181, R186 to R188, R226). -/
def Obligations.StepKeepsTheInvariant : Prop :=
  ∀ s t : State, s.Inv → step s = .next t → t.Inv

/-- R212: in a state that meets the invariant no step ends in a fault of the model, and only a payload in the model's own
issue slot (log entry 8) that is no wire command is refused. -/
def Obligations.InvariantStatesNeverStop : Prop :=
  ∀ s : State, s.Inv →
    (∀ x, step s ≠ .fault x) ∧
    (∀ x, step s = .refused x → s.phase = .idle ∧ ∃ bs e, s.issue = some bs ∧ decode (.payload bs) = .error e)

/-- R192: a transaction that has just been started runs, step by step, to where the blocking procedure says, with the same frame
written as often and the same answers left: either the same bytes are handed to `parse`, the last of those steps being
`Complete`, or E_NO_RESPONSE of the same attempt is handed to the fault handler. -/
def Obligations.StepsAgreeWithTheBlockingTransaction : Prop :=
  ∀ (s : State) (n : Nat) (f : List Byte) (left : List (Option Byte)), s.Inv → s.resetIn = false →
    s.phase = .ackWait → s.attempt = 1 → s.win = 0 → frameIn 18 s.txBuf s.txLen = some f →
    (∀ rx, blockXact s.cfg s.rxs = .framed n rx left →
      ∃ u, stepN (s.rxs.length - left.length) s = complete u ∧
        frameIn u.cfg.rxBufLen u.rxBuf u.rxLen = some rx ∧ u.rxs = left ∧ u.attempt = n ∧
        u.frames = s.frames ++ List.replicate (n - 1) f ∧ u.notes = s.notes ∧ u.results = s.results ∧
        u.genRegs = s.genRegs ∧ u.op = s.op ∧ u.stage = s.stage ∧ u.curCmd = s.curCmd ∧ u.cfg = s.cfg) ∧
    (blockXact s.cfg s.rxs = .silent n left →
      ∃ u, stepN (s.rxs.length - left.length) s = .next (onFault (.noResponse n) u) ∧ u.rxs = left ∧ u.attempt = n ∧
        u.frames = s.frames ++ List.replicate (n - 1) f ∧ u.notes = s.notes ∧ u.results = s.results ∧
        u.genRegs = s.genRegs ∧ u.op = s.op ∧ u.stage = s.stage ∧ u.curCmd = s.curCmd ∧ u.cfg = s.cfg)
end

