-- ==== Sys2Proof/Laws/Memory.lean ====
section
/-! SUPPORT. The laws of the buffers: read after write, the canonical form, the space a write stays in. -/

namespace Sys2Proof.Machine

/-! ### The canonical form -/

/-- The canonical form, by its first cell. -/
theorem Memory.wf_cons (c : Host.Cell) (m : Memory) :
    Memory.wf (c :: m) = true ↔ c.2 ≠ Memory.blank ∧ (∀ d ∈ m, c.1 < d.1) ∧ m.wf = true := by
  induction m generalizing c with
  | nil => simp [Memory.wf]
  | cons d m ih =>
    simp only [Memory.wf, Bool.and_eq_true, bne_iff_ne, decide_eq_true_eq, ih d, List.mem_cons, forall_eq_or_imp]
    constructor
    · rintro ⟨⟨h1, h2⟩, h3, h4, h5⟩
      exact ⟨h1, ⟨h2, fun e he => h2.trans (h4 e he)⟩, h3, h4, h5⟩
    · rintro ⟨h1, ⟨h2, _⟩, h3⟩
      exact ⟨⟨h1, h2⟩, h3⟩

@[simp] theorem Memory.wf_nil : Memory.wf [] = true := rfl

/-- An address below every listed one reads as blank. -/
theorem Memory.read_below (m : Memory) (a : Nat) (h : ∀ c ∈ m, a < c.1) : m.read a = Memory.blank := by
  induction m with
  | nil => rfl
  | cons c m ih =>
    have hc := h c (by simp)
    rw [Memory.read, if_neg (by omega)]
    exact ih (fun d hd => h d (by simp [hd]))

/-- Every listed address after a write was listed before or is the address written. -/
theorem Memory.mem_write {m : Memory} {a : Nat} {b : Byte} {c : Host.Cell} (h : c ∈ m.write a b) : c ∈ m ∨ c.1 = a := by
  have hc : ∀ c ∈ cellOf a b, c.1 = a := by
    intro c hc
    unfold cellOf at hc
    split at hc <;> simp_all
  induction m with
  | nil => exact .inr (hc c h)
  | cons d m ih =>
    rw [Memory.write] at h
    split at h
    · rcases List.mem_append.1 h with h | h
      · exact .inr (hc c h)
      · exact .inl h
    · split at h
      · rcases List.mem_append.1 h with h | h
        · exact .inr (hc c h)
        · exact .inl (by simp [h])
      · rcases List.mem_cons.1 h with h | h
        · exact .inl (by simp [h])
        · rcases ih h with h | h
          · exact .inl (by simp [h])
          · exact .inr h

/-- A write keeps the canonical form. -/
theorem Memory.wf_write {m : Memory} (a : Nat) (b : Byte) (h : m.wf = true) : (m.write a b).wf = true := by
  have hcell : ∀ (m : Memory), (∀ d ∈ m, a < d.1) → m.wf = true → Memory.wf (cellOf a b ++ m) = true := by
    intro m hm hw
    unfold cellOf
    split
    · exact hw
    · exact (Memory.wf_cons _ _).2 ⟨‹_›, hm, hw⟩
  induction m with
  | nil => simpa [Memory.write] using hcell [] (by simp) rfl
  | cons c m ih =>
    obtain ⟨h1, h2, h3⟩ := (Memory.wf_cons c m).1 h
    rw [Memory.write]
    split
    · rename_i hlt
      refine hcell _ ?_ h
      intro d hd
      rcases List.mem_cons.1 hd with rfl | hd
      · exact hlt
      · exact hlt.trans (h2 d hd)
    · split
      · rename_i heq
        exact hcell _ (fun d hd => heq ▸ h2 d hd) h3
      · rename_i hlt hne
        refine (Memory.wf_cons _ _).2 ⟨h1, fun d hd => ?_, ih h3⟩
        rcases Memory.mem_write hd with hd | hd
        · exact h2 d hd
        · omega

/-! ### Reads and writes -/

/-- A write leaves every other place alone. -/
theorem Memory.read_write_other (m : Memory) (a x : Nat) (b : Byte) (h : x ≠ a) : (m.write a b).read x = m.read x := by
  have hcell : ∀ m : Memory, Memory.read (cellOf a b ++ m) x = m.read x := by
    intro m
    unfold cellOf
    split
    · rfl
    · simp [Memory.read, Ne.symm h]
  induction m with
  | nil => simpa [Memory.write] using hcell []
  | cons c m ih =>
    rw [Memory.write]
    split
    · exact hcell _
    · split
      · rename_i heq
        rw [hcell, Memory.read, if_neg (by omega)]
      · simp [Memory.read, ih]

/-- A read after a write to the same place gives the value written. -/
theorem Memory.read_write_same (m : Memory) (a : Nat) (b : Byte) (h : m.wf = true) : (m.write a b).read a = b := by
  have hcell : ∀ m : Memory, (∀ d ∈ m, a < d.1) → Memory.read (cellOf a b ++ m) a = b := by
    intro m hm
    unfold cellOf
    split
    · rename_i hb
      simpa [hb] using Memory.read_below m a hm
    · simp [Memory.read]
  induction m with
  | nil => simpa [Memory.write] using hcell [] (by simp)
  | cons c m ih =>
    obtain ⟨_, h2, h3⟩ := (Memory.wf_cons c m).1 h
    rw [Memory.write]
    split
    · rename_i hlt
      refine hcell _ ?_
      intro d hd
      rcases List.mem_cons.1 hd with rfl | hd
      · exact hlt
      · exact hlt.trans (h2 d hd)
    · split
      · rename_i heq
        exact hcell _ (fun d hd => heq ▸ h2 d hd)
      · rename_i hne
        rw [Memory.read, if_neg (Ne.symm hne)]
        exact ih h3

/-! ### Sequences -/

theorem Memory.wf_writeSeq {m : Memory} (a : Nat) (s : List Byte) (h : m.wf = true) : (m.writeSeq a s).wf = true := by
  induction s generalizing m a with
  | nil => exact h
  | cons b s ih => exact ih _ (Memory.wf_write a b h)

/-- A sequence write leaves every place outside its bytes alone. -/
theorem Memory.read_writeSeq_other (m : Memory) (a x : Nat) (s : List Byte) (h : x < a ∨ a + s.length ≤ x) :
    (m.writeSeq a s).read x = m.read x := by
  induction s generalizing m a with
  | nil => rfl
  | cons b s ih =>
    simp only [List.length_cons] at h
    rw [Memory.writeSeq, ih _ _ (by omega), Memory.read_write_other _ _ _ _ (by omega)]

/-- Reading back a sequence just written gives the sequence. -/
theorem Memory.readSeq_writeSeq (m : Memory) (a : Nat) (s : List Byte) (h : m.wf = true) :
    (m.writeSeq a s).readSeq a s.length = s := by
  induction s generalizing m a with
  | nil => rfl
  | cons b s ih =>
    rw [Memory.writeSeq, List.length_cons, Memory.readSeq, ih _ _ (Memory.wf_write a b h),
      Memory.read_writeSeq_other _ _ _ _ (by omega), Memory.read_write_same _ _ _ h]

/-- Every address listed after a sequence write was listed before or is one of the addresses written. -/
theorem Memory.mem_writeSeq {m : Memory} {a : Nat} {s : List Byte} {c : Host.Cell} (h : c ∈ m.writeSeq a s) :
    c ∈ m ∨ (a ≤ c.1 ∧ c.1 < a + s.length) := by
  induction s generalizing m a with
  | nil => exact .inl h
  | cons b s ih =>
    simp only [List.length_cons]
    rcases ih h with h | h
    · rcases Memory.mem_write h with h | h
      · exact .inl h
      · exact .inr (by omega)
    · exact .inr (by omega)

@[simp] theorem Memory.readSeq_length (m : Memory) (a n : Nat) : (m.readSeq a n).length = n := by
  induction n generalizing a with
  | zero => rfl
  | succ n ih => simp [Memory.readSeq, ih]

/-- The `i`-th byte of a sequence read. -/
theorem Memory.readSeq_get (m : Memory) (a n i : Nat) (h : i < n) : (m.readSeq a n)[i]? = some (m.read (a + i)) := by
  induction n generalizing a i with
  | zero => omega
  | succ n ih =>
    cases i with
    | zero => simp [Memory.readSeq]
    | succ i =>
      rw [Memory.readSeq, List.getElem?_cons_succ, ih _ _ (by omega)]
      congr 2
      omega

/-- A sequence read ends with the byte at its last address. -/
theorem Memory.readSeq_succ (m : Memory) (a n : Nat) : m.readSeq a (n + 1) = m.readSeq a n ++ [m.read (a + n)] := by
  induction n generalizing a with
  | zero => simp [Memory.readSeq]
  | succ n ih =>
    rw [Memory.readSeq, ih (a + 1), Memory.readSeq]
    simp only [List.cons_append, Nat.add_assoc, Nat.add_comm 1 n]

/-- A write outside a sequence read does not show in it. -/
theorem Memory.readSeq_write_other (m : Memory) (a n x : Nat) (b : Byte) (h : x < a ∨ a + n ≤ x) :
    (m.write x b).readSeq a n = m.readSeq a n := by
  induction n generalizing a with
  | zero => rfl
  | succ n ih =>
    rw [Memory.readSeq, Memory.readSeq, ih _ (by omega), Memory.read_write_other _ _ _ _ (by omega)]

/-- `buf[0:len]` of a buffer that has that many bytes. -/
theorem frameIn_of_le {cap len : Nat} (m : Memory) (h : len ≤ cap) : frameIn cap m len = some (m.readSeq 0 len) := by
  simp [frameIn, h]

end Sys2Proof.Machine
end

