-- ==== Sys2Proof/Laws/Packet.lean ====
section
/-! SUPPORT. One lemma per function of the codec and of the packet layer: what it can answer. -/

namespace Sys2Proof.Machine

/-! ### Codec -/

@[simp] theorem checksum_nil : checksum [] = 0 := rfl
@[simp] theorem checksum_cons (b : Byte) (s : List Byte) : checksum (b :: s) = b ^^^ checksum s := rfl
@[simp] theorem escape_nil : escape [] = [] := rfl

/-- `escape` of a control character is two bytes, of any other byte one (R126). -/
theorem escape_cons (b : Byte) (s : List Byte) :
    escape (b :: s) = (if isCtrl b then [Const.esc, b ||| 0x80] else [b]) ++ escape s := by
  rw [escape]
  split <;> simp

/-- `escape` at most doubles a sequence (R126). -/
theorem escape_length_le (s : List Byte) : (escape s).length ≤ 2 * s.length := by
  induction s with
  | nil => simp
  | cons b s ih =>
    rw [escape_cons]
    split <;> simp <;> omega

/-- In range, `encode_int16` answers two bytes (R120). -/
theorem encodeInt16_of_range {v : Int} (h1 : -32768 ≤ v) (h2 : v ≤ 32767) :
    encodeInt16 v = .ok [BitVec.ofNat 8 (v % 65536).toNat, BitVec.ofNat 8 ((v % 65536).toNat / 256)] := by
  rw [encodeInt16, if_neg (by omega)]

/-- Out of range, `encode_int16` raises E_RANGE with the value (R120). -/
theorem encodeInt16_out_of_range {v : Int} (h : v < -32768 ∨ 32767 < v) : encodeInt16 v = .error (.range v) := by
  rw [encodeInt16, if_pos h]

/-- Everything `encode_int16` can answer. -/
theorem encodeInt16_cases (v : Int) :
    (∃ lo hi, encodeInt16 v = .ok [lo, hi]) ∨ encodeInt16 v = .error (.range v) := by
  by_cases h : v < -32768 ∨ 32767 < v
  · exact .inr (encodeInt16_out_of_range h)
  · exact .inl ⟨_, _, encodeInt16_of_range (by omega) (by omega)⟩

@[simp] theorem decodeInt16_pair (lo hi : Byte) : decodeInt16 [lo, hi] = .ok (hi ++ lo) := rfl

/-! ### Assemble -/

/-- Everything the move data can be: two encoded operands, or E_RANGE of the first one out of range (R160, R264). -/
theorem moveData_cases (sent : Int) (p t : Option Int) :
    (∃ p0 p1 t0 t1, moveData sent p t = .ok [p0, p1, t0, t1]) ∨ ∃ v, moveData sent p t = .error (.range v) := by
  unfold moveData
  rcases encodeInt16_cases (axisValue sent p) with ⟨p0, p1, hp⟩ | hp
  · rcases encodeInt16_cases (axisValue sent t) with ⟨t0, t1, ht⟩ | ht
    · exact .inl ⟨p0, p1, t0, t1, by simp [hp, ht]⟩
    · exact .inr ⟨axisValue sent t, by simp [hp, ht]⟩
  · exact .inr ⟨axisValue sent p, by simp [hp]⟩

/-- Everything an assemble routine can answer: data of the length of its format, a rejection by
`set_communication_timeout` alone, E_RANGE by a move alone. -/
theorem assembleData_cases (c : Config) (cmd : Cmd) (a : Args) :
    (∃ d, assembleData cmd a = .ok (some d) ∧ d.length = formatLen (registry c cmd).dataFormat) ∨
    (cmd = .setCommunicationTimeout ∧ assembleData cmd a = .ok none) ∨
    ((cmd = .moveAbsolute ∨ cmd = .moveDelta) ∧ ∃ v, assembleData cmd a = .error (.range v)) := by
  cases cmd with
  | getStatus => exact .inl ⟨_, rfl, rfl⟩
  | faultReset => exact .inl ⟨_, rfl, rfl⟩
  | home => exact .inl ⟨_, rfl, rfl⟩
  | getCommunicationTimeout => exact .inl ⟨_, rfl, rfl⟩
  | moveAbsolute =>
    rcases moveData_cases Const.sentinelAbs a.pan a.tilt with ⟨p0, p1, t0, t1, h⟩ | ⟨v, h⟩
    · exact .inl ⟨[p0, p1, t0, t1], by simp only [assembleData, h, Except.map], rfl⟩
    · exact .inr (.inr ⟨.inl rfl, v, by simp only [assembleData, h, Except.map]⟩)
  | moveDelta =>
    rcases moveData_cases Const.sentinelDelta a.pan a.tilt with ⟨p0, p1, t0, t1, h⟩ | ⟨v, h⟩
    · exact .inl ⟨[p0, p1, t0, t1], by simp only [assembleData, h, Except.map], rfl⟩
    · exact .inr (.inr ⟨.inr rfl, v, by simp only [assembleData, h, Except.map]⟩)
  | setCommunicationTimeout =>
    by_cases h : a.tmo < Const.tmoMin ∨ Const.tmoMax < a.tmo
    · exact .inr (.inl ⟨rfl, by simp only [assembleData, timeoutData, if_pos h]⟩)
    · exact .inl ⟨[BitVec.ofInt 8 a.tmo], by simp only [assembleData, timeoutData, if_neg h], rfl⟩

/-- Everything `assemble` can answer (R141). -/
theorem assemble_cases (c : Config) (cmd : Cmd) (a : Args) :
    (∃ d, assembleData cmd a = .ok (some d) ∧ d.length = formatLen (registry c cmd).dataFormat ∧
      assemble c cmd a = .ok (some (frameOf c ((registry c cmd).opcode :: d)))) ∨
    (cmd = .setCommunicationTimeout ∧ assemble c cmd a = .ok none) ∨
    ((cmd = .moveAbsolute ∨ cmd = .moveDelta) ∧ ∃ v, assemble c cmd a = .error (.range v)) := by
  rcases assembleData_cases c cmd a with ⟨d, h, hl⟩ | ⟨hc, h⟩ | ⟨hc, v, h⟩
  · exact .inl ⟨d, h, hl, by simp [assemble, h]⟩
  · exact .inr (.inl ⟨hc, by simp [assemble, h]⟩)
  · exact .inr (.inr ⟨hc, v, by simp [assemble, h]⟩)

/-- A frame around `n` bytes of opcode and data has at most `2 n + 6` bytes (R52). -/
theorem frameOf_length_le (c : Config) (body : List Byte) : (frameOf c body).length ≤ 2 * body.length + 6 := by
  have h := escape_length_le (identityBytes c ++ (body ++ [checksum body]))
  have hi : (identityBytes c).length ≤ 1 := by unfold identityBytes; split <;> simp
  simp only [List.length_append, List.length_cons, List.length_nil] at h
  simp only [frameOf, List.length_cons, List.length_append, List.length_nil]
  omega

/-- No assembled frame is longer than `tx_buf` (R52). -/
theorem assemble_length_le {c : Config} {cmd : Cmd} {a : Args} {f : List Byte} (h : assemble c cmd a = .ok (some f)) :
    f.length ≤ Const.txBufLen := by
  rcases assemble_cases c cmd a with ⟨d, _, hl, e⟩ | ⟨_, e⟩ | ⟨_, v, e⟩
  · have hf := frameOf_length_le c ((registry c cmd).opcode :: d)
    have hd : formatLen (registry c cmd).dataFormat ≤ 5 := by cases cmd <;> simp [registry, formatLen]
    rw [e] at h
    simp only [Except.ok.injEq, Option.some.injEq] at h
    rw [List.length_cons, hl, h] at hf
    simp only [Const.txBufLen]
    omega
  · simp [e] at h
  · simp [e] at h

/-! ### Parse -/

/-- Everything the status parse routine can answer (R157). -/
theorem parseStatus_cases (data : List Byte) :
    (∃ s, parseStatus data = .ok (.status s)) ∨ parseStatus data = .error (.length data.length) := by
  unfold parseStatus
  split
  · exact .inl ⟨_, rfl⟩
  · exact .inr rfl

/-- Everything the timeout parse routine can answer (R165). -/
theorem parseTimeout_cases (data : List Byte) :
    (∃ t, parseTimeout data = .ok (.timeout t)) ∨ parseTimeout data = .error (.length data.length) := by
  unfold parseTimeout
  split
  · exact .inl ⟨_, rfl⟩
  · exact .inr rfl

/-- Everything the parse routine of an empty reply can answer (R162). -/
theorem parseNothing_cases (data : List Byte) :
    parseNothing data = .ok .nothing ∨ parseNothing data = .error (.length data.length) := by
  unfold parseNothing
  split
  · exact .inl rfl
  · exact .inr rfl

/-- Everything a reply's parse routine can answer, by its kind (R88). -/
theorem parseData_cases (k : ReplyKind) (data : List Byte) :
    (∃ s, k = .rs ∧ parseData k data = .ok (.status s)) ∨ (∃ t, k = .rt ∧ parseData k data = .ok (.timeout t)) ∨
    (k = .rnil ∧ parseData k data = .ok .nothing) ∨ parseData k data = .error (.length data.length) := by
  cases k with
  | rs =>
    rcases parseStatus_cases data with ⟨s, h⟩ | h
    · exact .inl ⟨s, rfl, h⟩
    · exact .inr (.inr (.inr h))
  | rt =>
    rcases parseTimeout_cases data with ⟨t, h⟩ | h
    · exact .inr (.inl ⟨t, rfl, h⟩)
    · exact .inr (.inr (.inr h))
  | rnil =>
    rcases parseNothing_cases data with h | h
    · exact .inr (.inr (.inl ⟨rfl, h⟩))
    · exact .inr (.inr (.inr h))

/-- `unescape` raises nothing but E_ESCAPE (R127). -/
theorem unescape_error {s : List Byte} {e : Raise} (h : unescape s = .error e) : e = .escape := by
  fun_induction unescape s with
  | case1 => simp at h
  | case2 => simpa using h.symm
  | case3 => simp at h
  | case4 s x ih => exact ih (by unfold consOk at h; split at h <;> simp_all)
  | case5 b x s hb ih => exact ih (by unfold consOk at h; split at h <;> simp_all)

/-- A typed result has the type of its command's reply kind (R88, R212). -/
theorem parse_ok {c : Config} {cmd : Cmd} {f : List Byte} {r : Reply} (h : parse c cmd f = .ok r) :
    (∃ s, (registry c cmd).replyKind = .rs ∧ r = .status s) ∨ (∃ t, (registry c cmd).replyKind = .rt ∧ r = .timeout t) ∨
    ((registry c cmd).replyKind = .rnil ∧ r = .nothing) := by
  unfold parse at h
  split at h
  · simp at h
  · split at h
    · simp at h
    · split at h
      · simp at h
      · unfold parseChecked at h
        split at h
        · simp at h
        · split at h
          · simp at h
          · unfold parsePayload at h
            split at h
            · simp at h
            · split at h
              · simp at h
              · rcases parseData_cases (registry c cmd).replyKind _ with ⟨s, k, e⟩ | ⟨t, k, e⟩ | ⟨k, e⟩ | e
                · exact .inl ⟨s, k, by rw [e] at h; simpa using h.symm⟩
                · exact .inr (.inl ⟨t, k, by rw [e] at h; simpa using h.symm⟩)
                · exact .inr (.inr ⟨k, by rw [e] at h; simpa using h.symm⟩)
                · rw [e] at h; simp at h

end Sys2Proof.Machine
end

