-- ==== Sys2Proof/Laws/State.lean ====
section
/-! SUPPORT. One lemma per field of `State` per update: what each operation of Ops.lean and Transaction.lean makes of it. -/

namespace Sys2Proof.Machine

/-! ### `act` -/

@[simp] theorem act_cfg (a : Action) (s : State) : (s.act a).cfg = s.cfg := rfl
@[simp] theorem act_curPan (a : Action) (s : State) : (s.act a).curPan = s.curPan := rfl
@[simp] theorem act_curTilt (a : Action) (s : State) : (s.act a).curTilt = s.curTilt := rfl
@[simp] theorem act_destPan (a : Action) (s : State) : (s.act a).destPan = s.destPan := rfl
@[simp] theorem act_destTilt (a : Action) (s : State) : (s.act a).destTilt = s.destTilt := rfl
@[simp] theorem act_phase (a : Action) (s : State) : (s.act a).phase = s.phase := rfl
@[simp] theorem act_op (a : Action) (s : State) : (s.act a).op = s.op := rfl
@[simp] theorem act_stage (a : Action) (s : State) : (s.act a).stage = s.stage := rfl
@[simp] theorem act_curCmd (a : Action) (s : State) : (s.act a).curCmd = s.curCmd := rfl
@[simp] theorem act_attempt (a : Action) (s : State) : (s.act a).attempt = s.attempt := rfl
@[simp] theorem act_win (a : Action) (s : State) : (s.act a).win = s.win := rfl
@[simp] theorem act_startupN (a : Action) (s : State) : (s.act a).startupN = s.startupN := rfl
@[simp] theorem act_reqTmo (a : Action) (s : State) : (s.act a).reqTmo = s.reqTmo := rfl
@[simp] theorem act_txBuf (a : Action) (s : State) : (s.act a).txBuf = s.txBuf := rfl
@[simp] theorem act_txLen (a : Action) (s : State) : (s.act a).txLen = s.txLen := rfl
@[simp] theorem act_rxBuf (a : Action) (s : State) : (s.act a).rxBuf = s.rxBuf := rfl
@[simp] theorem act_rxLen (a : Action) (s : State) : (s.act a).rxLen = s.rxLen := rfl
@[simp] theorem act_faultCode (a : Action) (s : State) : (s.act a).faultCode = s.faultCode := rfl
@[simp] theorem act_faultExp (a : Action) (s : State) : (s.act a).faultExp = s.faultExp := rfl
@[simp] theorem act_faultAct (a : Action) (s : State) : (s.act a).faultAct = s.faultAct := rfl
@[simp] theorem act_cmd (a : Action) (s : State) : (s.act a).cmd = s.cmd := rfl
@[simp] theorem act_rxs (a : Action) (s : State) : (s.act a).rxs = s.rxs := rfl
@[simp] theorem act_rxMore (a : Action) (s : State) : (s.act a).rxMore = s.rxMore := rfl
@[simp] theorem act_log (a : Action) (s : State) : (s.act a).log = s.log ++ [a] := rfl
@[simp] theorem act_resetIn (a : Action) (s : State) : (s.act a).resetIn = s.resetIn := rfl
@[simp] theorem act_issue (a : Action) (s : State) : (s.act a).issue = s.issue := rfl

/-! ### `txWrite` -/

@[simp] theorem txWrite_cfg (f : List Byte) (s : State) : (txWrite f s).cfg = s.cfg := rfl
@[simp] theorem txWrite_curPan (f : List Byte) (s : State) : (txWrite f s).curPan = s.curPan := rfl
@[simp] theorem txWrite_curTilt (f : List Byte) (s : State) : (txWrite f s).curTilt = s.curTilt := rfl
@[simp] theorem txWrite_destPan (f : List Byte) (s : State) : (txWrite f s).destPan = s.destPan := rfl
@[simp] theorem txWrite_destTilt (f : List Byte) (s : State) : (txWrite f s).destTilt = s.destTilt := rfl
@[simp] theorem txWrite_phase (f : List Byte) (s : State) : (txWrite f s).phase = s.phase := rfl
@[simp] theorem txWrite_op (f : List Byte) (s : State) : (txWrite f s).op = s.op := rfl
@[simp] theorem txWrite_stage (f : List Byte) (s : State) : (txWrite f s).stage = s.stage := rfl
@[simp] theorem txWrite_curCmd (f : List Byte) (s : State) : (txWrite f s).curCmd = s.curCmd := rfl
@[simp] theorem txWrite_attempt (f : List Byte) (s : State) : (txWrite f s).attempt = s.attempt := rfl
@[simp] theorem txWrite_win (f : List Byte) (s : State) : (txWrite f s).win = s.win := rfl
@[simp] theorem txWrite_startupN (f : List Byte) (s : State) : (txWrite f s).startupN = s.startupN := rfl
@[simp] theorem txWrite_reqTmo (f : List Byte) (s : State) : (txWrite f s).reqTmo = s.reqTmo := rfl
@[simp] theorem txWrite_txBuf (f : List Byte) (s : State) : (txWrite f s).txBuf = s.txBuf := rfl
@[simp] theorem txWrite_txLen (f : List Byte) (s : State) : (txWrite f s).txLen = s.txLen := rfl
@[simp] theorem txWrite_rxBuf (f : List Byte) (s : State) : (txWrite f s).rxBuf = s.rxBuf := rfl
@[simp] theorem txWrite_rxLen (f : List Byte) (s : State) : (txWrite f s).rxLen = s.rxLen := rfl
@[simp] theorem txWrite_faultCode (f : List Byte) (s : State) : (txWrite f s).faultCode = s.faultCode := rfl
@[simp] theorem txWrite_faultExp (f : List Byte) (s : State) : (txWrite f s).faultExp = s.faultExp := rfl
@[simp] theorem txWrite_faultAct (f : List Byte) (s : State) : (txWrite f s).faultAct = s.faultAct := rfl
@[simp] theorem txWrite_cmd (f : List Byte) (s : State) : (txWrite f s).cmd = s.cmd := rfl
@[simp] theorem txWrite_rxs (f : List Byte) (s : State) : (txWrite f s).rxs = s.rxs := rfl
@[simp] theorem txWrite_rxMore (f : List Byte) (s : State) : (txWrite f s).rxMore = s.rxMore := rfl
@[simp] theorem txWrite_log (f : List Byte) (s : State) : (txWrite f s).log = s.log ++ [.txWrite f] := rfl
@[simp] theorem txWrite_resetIn (f : List Byte) (s : State) : (txWrite f s).resetIn = s.resetIn := rfl
@[simp] theorem txWrite_issue (f : List Byte) (s : State) : (txWrite f s).issue = s.issue := rfl

/-! ### `notify` -/

@[simp] theorem notify_cfg (n : Notification) (s : State) : (notify n s).cfg = s.cfg := rfl
@[simp] theorem notify_curPan (n : Notification) (s : State) : (notify n s).curPan = s.curPan := rfl
@[simp] theorem notify_curTilt (n : Notification) (s : State) : (notify n s).curTilt = s.curTilt := rfl
@[simp] theorem notify_destPan (n : Notification) (s : State) : (notify n s).destPan = s.destPan := rfl
@[simp] theorem notify_destTilt (n : Notification) (s : State) : (notify n s).destTilt = s.destTilt := rfl
@[simp] theorem notify_phase (n : Notification) (s : State) : (notify n s).phase = s.phase := rfl
@[simp] theorem notify_op (n : Notification) (s : State) : (notify n s).op = s.op := rfl
@[simp] theorem notify_stage (n : Notification) (s : State) : (notify n s).stage = s.stage := rfl
@[simp] theorem notify_curCmd (n : Notification) (s : State) : (notify n s).curCmd = s.curCmd := rfl
@[simp] theorem notify_attempt (n : Notification) (s : State) : (notify n s).attempt = s.attempt := rfl
@[simp] theorem notify_win (n : Notification) (s : State) : (notify n s).win = s.win := rfl
@[simp] theorem notify_startupN (n : Notification) (s : State) : (notify n s).startupN = s.startupN := rfl
@[simp] theorem notify_reqTmo (n : Notification) (s : State) : (notify n s).reqTmo = s.reqTmo := rfl
@[simp] theorem notify_txBuf (n : Notification) (s : State) : (notify n s).txBuf = s.txBuf := rfl
@[simp] theorem notify_txLen (n : Notification) (s : State) : (notify n s).txLen = s.txLen := rfl
@[simp] theorem notify_rxBuf (n : Notification) (s : State) : (notify n s).rxBuf = s.rxBuf := rfl
@[simp] theorem notify_rxLen (n : Notification) (s : State) : (notify n s).rxLen = s.rxLen := rfl
@[simp] theorem notify_faultCode (n : Notification) (s : State) : (notify n s).faultCode = s.faultCode := rfl
@[simp] theorem notify_faultExp (n : Notification) (s : State) : (notify n s).faultExp = s.faultExp := rfl
@[simp] theorem notify_faultAct (n : Notification) (s : State) : (notify n s).faultAct = s.faultAct := rfl
@[simp] theorem notify_cmd (n : Notification) (s : State) : (notify n s).cmd = s.cmd := rfl
@[simp] theorem notify_rxs (n : Notification) (s : State) : (notify n s).rxs = s.rxs := rfl
@[simp] theorem notify_rxMore (n : Notification) (s : State) : (notify n s).rxMore = s.rxMore := rfl
@[simp] theorem notify_log (n : Notification) (s : State) : (notify n s).log = s.log ++ [.note n] := rfl
@[simp] theorem notify_resetIn (n : Notification) (s : State) : (notify n s).resetIn = s.resetIn := rfl
@[simp] theorem notify_issue (n : Notification) (s : State) : (notify n s).issue = s.issue := rfl

/-! ### `finish` -/

@[simp] theorem finish_cfg (r : Result) (s : State) : (finish r s).cfg = s.cfg := rfl
@[simp] theorem finish_curPan (r : Result) (s : State) : (finish r s).curPan = s.curPan := rfl
@[simp] theorem finish_curTilt (r : Result) (s : State) : (finish r s).curTilt = s.curTilt := rfl
@[simp] theorem finish_destPan (r : Result) (s : State) : (finish r s).destPan = s.destPan := rfl
@[simp] theorem finish_destTilt (r : Result) (s : State) : (finish r s).destTilt = s.destTilt := rfl
@[simp] theorem finish_phase (r : Result) (s : State) : (finish r s).phase = .idle := rfl
@[simp] theorem finish_op (r : Result) (s : State) : (finish r s).op = s.op := rfl
@[simp] theorem finish_stage (r : Result) (s : State) : (finish r s).stage = s.stage := rfl
@[simp] theorem finish_curCmd (r : Result) (s : State) : (finish r s).curCmd = s.curCmd := rfl
@[simp] theorem finish_attempt (r : Result) (s : State) : (finish r s).attempt = s.attempt := rfl
@[simp] theorem finish_win (r : Result) (s : State) : (finish r s).win = s.win := rfl
@[simp] theorem finish_startupN (r : Result) (s : State) : (finish r s).startupN = s.startupN := rfl
@[simp] theorem finish_reqTmo (r : Result) (s : State) : (finish r s).reqTmo = s.reqTmo := rfl
@[simp] theorem finish_txBuf (r : Result) (s : State) : (finish r s).txBuf = s.txBuf := rfl
@[simp] theorem finish_txLen (r : Result) (s : State) : (finish r s).txLen = s.txLen := rfl
@[simp] theorem finish_rxBuf (r : Result) (s : State) : (finish r s).rxBuf = s.rxBuf := rfl
@[simp] theorem finish_rxLen (r : Result) (s : State) : (finish r s).rxLen = s.rxLen := rfl
@[simp] theorem finish_faultCode (r : Result) (s : State) : (finish r s).faultCode = s.faultCode := rfl
@[simp] theorem finish_faultExp (r : Result) (s : State) : (finish r s).faultExp = s.faultExp := rfl
@[simp] theorem finish_faultAct (r : Result) (s : State) : (finish r s).faultAct = s.faultAct := rfl
@[simp] theorem finish_cmd (r : Result) (s : State) : (finish r s).cmd = s.cmd := rfl
@[simp] theorem finish_rxs (r : Result) (s : State) : (finish r s).rxs = s.rxs := rfl
@[simp] theorem finish_rxMore (r : Result) (s : State) : (finish r s).rxMore = s.rxMore := rfl
@[simp] theorem finish_log (r : Result) (s : State) : (finish r s).log = s.log ++ [.result r] := rfl
@[simp] theorem finish_resetIn (r : Result) (s : State) : (finish r s).resetIn = s.resetIn := rfl
@[simp] theorem finish_issue (r : Result) (s : State) : (finish r s).issue = s.issue := rfl

/-! ### `clearFault` -/

@[simp] theorem clearFault_cfg (s : State) : (clearFault s).cfg = s.cfg := rfl
@[simp] theorem clearFault_curPan (s : State) : (clearFault s).curPan = s.curPan := rfl
@[simp] theorem clearFault_curTilt (s : State) : (clearFault s).curTilt = s.curTilt := rfl
@[simp] theorem clearFault_destPan (s : State) : (clearFault s).destPan = s.destPan := rfl
@[simp] theorem clearFault_destTilt (s : State) : (clearFault s).destTilt = s.destTilt := rfl
@[simp] theorem clearFault_phase (s : State) : (clearFault s).phase = s.phase := rfl
@[simp] theorem clearFault_op (s : State) : (clearFault s).op = s.op := rfl
@[simp] theorem clearFault_stage (s : State) : (clearFault s).stage = s.stage := rfl
@[simp] theorem clearFault_curCmd (s : State) : (clearFault s).curCmd = s.curCmd := rfl
@[simp] theorem clearFault_attempt (s : State) : (clearFault s).attempt = s.attempt := rfl
@[simp] theorem clearFault_win (s : State) : (clearFault s).win = s.win := rfl
@[simp] theorem clearFault_startupN (s : State) : (clearFault s).startupN = s.startupN := rfl
@[simp] theorem clearFault_reqTmo (s : State) : (clearFault s).reqTmo = s.reqTmo := rfl
@[simp] theorem clearFault_txBuf (s : State) : (clearFault s).txBuf = s.txBuf := rfl
@[simp] theorem clearFault_txLen (s : State) : (clearFault s).txLen = s.txLen := rfl
@[simp] theorem clearFault_rxBuf (s : State) : (clearFault s).rxBuf = s.rxBuf := rfl
@[simp] theorem clearFault_rxLen (s : State) : (clearFault s).rxLen = s.rxLen := rfl
@[simp] theorem clearFault_faultCode (s : State) : (clearFault s).faultCode = 0 := rfl
@[simp] theorem clearFault_faultExp (s : State) : (clearFault s).faultExp = 0 := rfl
@[simp] theorem clearFault_faultAct (s : State) : (clearFault s).faultAct = 0 := rfl
@[simp] theorem clearFault_cmd (s : State) : (clearFault s).cmd = s.cmd := rfl
@[simp] theorem clearFault_rxs (s : State) : (clearFault s).rxs = s.rxs := rfl
@[simp] theorem clearFault_rxMore (s : State) : (clearFault s).rxMore = s.rxMore := rfl
@[simp] theorem clearFault_log (s : State) : (clearFault s).log = s.log := rfl
@[simp] theorem clearFault_resetIn (s : State) : (clearFault s).resetIn = s.resetIn := rfl
@[simp] theorem clearFault_issue (s : State) : (clearFault s).issue = s.issue := rfl

/-! ### `sendFrame` -/

@[simp] theorem sendFrame_cfg (c : Cmd) (f : List Byte) (s : State) : (sendFrame c f s).cfg = s.cfg := rfl
@[simp] theorem sendFrame_curPan (c : Cmd) (f : List Byte) (s : State) : (sendFrame c f s).curPan = s.curPan := rfl
@[simp] theorem sendFrame_curTilt (c : Cmd) (f : List Byte) (s : State) : (sendFrame c f s).curTilt = s.curTilt := rfl
@[simp] theorem sendFrame_destPan (c : Cmd) (f : List Byte) (s : State) : (sendFrame c f s).destPan = s.destPan := rfl
@[simp] theorem sendFrame_destTilt (c : Cmd) (f : List Byte) (s : State) : (sendFrame c f s).destTilt = s.destTilt := rfl
@[simp] theorem sendFrame_phase (c : Cmd) (f : List Byte) (s : State) : (sendFrame c f s).phase = .ackWait := rfl
@[simp] theorem sendFrame_op (c : Cmd) (f : List Byte) (s : State) : (sendFrame c f s).op = s.op := rfl
@[simp] theorem sendFrame_stage (c : Cmd) (f : List Byte) (s : State) : (sendFrame c f s).stage = s.stage := rfl
@[simp] theorem sendFrame_curCmd (c : Cmd) (f : List Byte) (s : State) : (sendFrame c f s).curCmd = c := rfl
@[simp] theorem sendFrame_attempt (c : Cmd) (f : List Byte) (s : State) : (sendFrame c f s).attempt = 1 := rfl
@[simp] theorem sendFrame_win (c : Cmd) (f : List Byte) (s : State) : (sendFrame c f s).win = 0 := rfl
@[simp] theorem sendFrame_startupN (c : Cmd) (f : List Byte) (s : State) : (sendFrame c f s).startupN = s.startupN := rfl
@[simp] theorem sendFrame_reqTmo (c : Cmd) (f : List Byte) (s : State) : (sendFrame c f s).reqTmo = s.reqTmo := rfl
@[simp] theorem sendFrame_txBuf (c : Cmd) (f : List Byte) (s : State) : (sendFrame c f s).txBuf = s.txBuf.writeSeq 0 f := rfl
@[simp] theorem sendFrame_txLen (c : Cmd) (f : List Byte) (s : State) : (sendFrame c f s).txLen = f.length := rfl
@[simp] theorem sendFrame_rxBuf (c : Cmd) (f : List Byte) (s : State) : (sendFrame c f s).rxBuf = s.rxBuf := rfl
@[simp] theorem sendFrame_rxLen (c : Cmd) (f : List Byte) (s : State) : (sendFrame c f s).rxLen = 0 := rfl
@[simp] theorem sendFrame_faultCode (c : Cmd) (f : List Byte) (s : State) : (sendFrame c f s).faultCode = s.faultCode := rfl
@[simp] theorem sendFrame_faultExp (c : Cmd) (f : List Byte) (s : State) : (sendFrame c f s).faultExp = s.faultExp := rfl
@[simp] theorem sendFrame_faultAct (c : Cmd) (f : List Byte) (s : State) : (sendFrame c f s).faultAct = s.faultAct := rfl
@[simp] theorem sendFrame_cmd (c : Cmd) (f : List Byte) (s : State) : (sendFrame c f s).cmd = s.cmd := rfl
@[simp] theorem sendFrame_rxs (c : Cmd) (f : List Byte) (s : State) : (sendFrame c f s).rxs = s.rxs := rfl
@[simp] theorem sendFrame_rxMore (c : Cmd) (f : List Byte) (s : State) : (sendFrame c f s).rxMore = s.rxMore := rfl
@[simp] theorem sendFrame_log (c : Cmd) (f : List Byte) (s : State) : (sendFrame c f s).log = s.log ++ [.txWrite f] := rfl
@[simp] theorem sendFrame_resetIn (c : Cmd) (f : List Byte) (s : State) : (sendFrame c f s).resetIn = s.resetIn := rfl
@[simp] theorem sendFrame_issue (c : Cmd) (f : List Byte) (s : State) : (sendFrame c f s).issue = s.issue := rfl

/-! ### `accept` -/

@[simp] theorem accept_cfg (o : BitVec 4) (s : State) : (accept o s).cfg = s.cfg := rfl
@[simp] theorem accept_curPan (o : BitVec 4) (s : State) : (accept o s).curPan = s.curPan := rfl
@[simp] theorem accept_curTilt (o : BitVec 4) (s : State) : (accept o s).curTilt = s.curTilt := rfl
@[simp] theorem accept_destPan (o : BitVec 4) (s : State) : (accept o s).destPan = s.destPan := rfl
@[simp] theorem accept_destTilt (o : BitVec 4) (s : State) : (accept o s).destTilt = s.destTilt := rfl
@[simp] theorem accept_phase (o : BitVec 4) (s : State) : (accept o s).phase = s.phase := rfl
@[simp] theorem accept_op (o : BitVec 4) (s : State) : (accept o s).op = o := rfl
@[simp] theorem accept_stage (o : BitVec 4) (s : State) : (accept o s).stage = .first := rfl
@[simp] theorem accept_curCmd (o : BitVec 4) (s : State) : (accept o s).curCmd = s.curCmd := rfl
@[simp] theorem accept_attempt (o : BitVec 4) (s : State) : (accept o s).attempt = s.attempt := rfl
@[simp] theorem accept_win (o : BitVec 4) (s : State) : (accept o s).win = s.win := rfl
@[simp] theorem accept_startupN (o : BitVec 4) (s : State) : (accept o s).startupN = s.startupN := rfl
@[simp] theorem accept_reqTmo (o : BitVec 4) (s : State) : (accept o s).reqTmo = s.reqTmo := rfl
@[simp] theorem accept_txBuf (o : BitVec 4) (s : State) : (accept o s).txBuf = s.txBuf := rfl
@[simp] theorem accept_txLen (o : BitVec 4) (s : State) : (accept o s).txLen = s.txLen := rfl
@[simp] theorem accept_rxBuf (o : BitVec 4) (s : State) : (accept o s).rxBuf = s.rxBuf := rfl
@[simp] theorem accept_rxLen (o : BitVec 4) (s : State) : (accept o s).rxLen = s.rxLen := rfl
@[simp] theorem accept_faultCode (o : BitVec 4) (s : State) : (accept o s).faultCode = s.faultCode := rfl
@[simp] theorem accept_faultExp (o : BitVec 4) (s : State) : (accept o s).faultExp = s.faultExp := rfl
@[simp] theorem accept_faultAct (o : BitVec 4) (s : State) : (accept o s).faultAct = s.faultAct := rfl
@[simp] theorem accept_cmd (o : BitVec 4) (s : State) : (accept o s).cmd = s.cmd := rfl
@[simp] theorem accept_rxs (o : BitVec 4) (s : State) : (accept o s).rxs = s.rxs := rfl
@[simp] theorem accept_rxMore (o : BitVec 4) (s : State) : (accept o s).rxMore = s.rxMore := rfl
@[simp] theorem accept_log (o : BitVec 4) (s : State) : (accept o s).log = s.log := rfl
@[simp] theorem accept_resetIn (o : BitVec 4) (s : State) : (accept o s).resetIn = s.resetIn := rfl
@[simp] theorem accept_issue (o : BitVec 4) (s : State) : (accept o s).issue = s.issue := rfl

/-! ### `takeRecord` -/

@[simp] theorem takeRecord_cfg (r : HostRecord) (q : List HostRecord) (s : State) : (takeRecord r q s).cfg = s.cfg := rfl
@[simp] theorem takeRecord_curPan (r : HostRecord) (q : List HostRecord) (s : State) : (takeRecord r q s).curPan = s.curPan := rfl
@[simp] theorem takeRecord_curTilt (r : HostRecord) (q : List HostRecord) (s : State) : (takeRecord r q s).curTilt = s.curTilt := rfl
@[simp] theorem takeRecord_destPan (r : HostRecord) (q : List HostRecord) (s : State) : (takeRecord r q s).destPan = s.destPan := rfl
@[simp] theorem takeRecord_destTilt (r : HostRecord) (q : List HostRecord) (s : State) : (takeRecord r q s).destTilt = s.destTilt := rfl
@[simp] theorem takeRecord_phase (r : HostRecord) (q : List HostRecord) (s : State) : (takeRecord r q s).phase = s.phase := rfl
@[simp] theorem takeRecord_op (r : HostRecord) (q : List HostRecord) (s : State) : (takeRecord r q s).op = s.op := rfl
@[simp] theorem takeRecord_stage (r : HostRecord) (q : List HostRecord) (s : State) : (takeRecord r q s).stage = s.stage := rfl
@[simp] theorem takeRecord_curCmd (r : HostRecord) (q : List HostRecord) (s : State) : (takeRecord r q s).curCmd = s.curCmd := rfl
@[simp] theorem takeRecord_attempt (r : HostRecord) (q : List HostRecord) (s : State) : (takeRecord r q s).attempt = s.attempt := rfl
@[simp] theorem takeRecord_win (r : HostRecord) (q : List HostRecord) (s : State) : (takeRecord r q s).win = s.win := rfl
@[simp] theorem takeRecord_startupN (r : HostRecord) (q : List HostRecord) (s : State) : (takeRecord r q s).startupN = s.startupN := rfl
@[simp] theorem takeRecord_reqTmo (r : HostRecord) (q : List HostRecord) (s : State) : (takeRecord r q s).reqTmo = s.reqTmo := rfl
@[simp] theorem takeRecord_txBuf (r : HostRecord) (q : List HostRecord) (s : State) : (takeRecord r q s).txBuf = s.txBuf := rfl
@[simp] theorem takeRecord_txLen (r : HostRecord) (q : List HostRecord) (s : State) : (takeRecord r q s).txLen = s.txLen := rfl
@[simp] theorem takeRecord_rxBuf (r : HostRecord) (q : List HostRecord) (s : State) : (takeRecord r q s).rxBuf = s.rxBuf := rfl
@[simp] theorem takeRecord_rxLen (r : HostRecord) (q : List HostRecord) (s : State) : (takeRecord r q s).rxLen = s.rxLen := rfl
@[simp] theorem takeRecord_faultCode (r : HostRecord) (q : List HostRecord) (s : State) : (takeRecord r q s).faultCode = s.faultCode := rfl
@[simp] theorem takeRecord_faultExp (r : HostRecord) (q : List HostRecord) (s : State) : (takeRecord r q s).faultExp = s.faultExp := rfl
@[simp] theorem takeRecord_faultAct (r : HostRecord) (q : List HostRecord) (s : State) : (takeRecord r q s).faultAct = s.faultAct := rfl
@[simp] theorem takeRecord_cmd (r : HostRecord) (q : List HostRecord) (s : State) : (takeRecord r q s).cmd = q := rfl
@[simp] theorem takeRecord_rxs (r : HostRecord) (q : List HostRecord) (s : State) : (takeRecord r q s).rxs = s.rxs := rfl
@[simp] theorem takeRecord_rxMore (r : HostRecord) (q : List HostRecord) (s : State) : (takeRecord r q s).rxMore = s.rxMore := rfl
@[simp] theorem takeRecord_log (r : HostRecord) (q : List HostRecord) (s : State) : (takeRecord r q s).log = s.log ++ [.accept r] := rfl
@[simp] theorem takeRecord_resetIn (r : HostRecord) (q : List HostRecord) (s : State) : (takeRecord r q s).resetIn = s.resetIn := rfl
@[simp] theorem takeRecord_issue (r : HostRecord) (q : List HostRecord) (s : State) : (takeRecord r q s).issue = s.issue := rfl

/-! ### `takeAnswer` -/

@[simp] theorem takeAnswer_cfg (a : Option Byte) (q : List (Option Byte)) (s : State) : (takeAnswer a q s).cfg = s.cfg := rfl
@[simp] theorem takeAnswer_curPan (a : Option Byte) (q : List (Option Byte)) (s : State) : (takeAnswer a q s).curPan = s.curPan := rfl
@[simp] theorem takeAnswer_curTilt (a : Option Byte) (q : List (Option Byte)) (s : State) : (takeAnswer a q s).curTilt = s.curTilt := rfl
@[simp] theorem takeAnswer_destPan (a : Option Byte) (q : List (Option Byte)) (s : State) : (takeAnswer a q s).destPan = s.destPan := rfl
@[simp] theorem takeAnswer_destTilt (a : Option Byte) (q : List (Option Byte)) (s : State) : (takeAnswer a q s).destTilt = s.destTilt := rfl
@[simp] theorem takeAnswer_phase (a : Option Byte) (q : List (Option Byte)) (s : State) : (takeAnswer a q s).phase = s.phase := rfl
@[simp] theorem takeAnswer_op (a : Option Byte) (q : List (Option Byte)) (s : State) : (takeAnswer a q s).op = s.op := rfl
@[simp] theorem takeAnswer_stage (a : Option Byte) (q : List (Option Byte)) (s : State) : (takeAnswer a q s).stage = s.stage := rfl
@[simp] theorem takeAnswer_curCmd (a : Option Byte) (q : List (Option Byte)) (s : State) : (takeAnswer a q s).curCmd = s.curCmd := rfl
@[simp] theorem takeAnswer_attempt (a : Option Byte) (q : List (Option Byte)) (s : State) : (takeAnswer a q s).attempt = s.attempt := rfl
@[simp] theorem takeAnswer_win (a : Option Byte) (q : List (Option Byte)) (s : State) : (takeAnswer a q s).win = s.win := rfl
@[simp] theorem takeAnswer_startupN (a : Option Byte) (q : List (Option Byte)) (s : State) : (takeAnswer a q s).startupN = s.startupN := rfl
@[simp] theorem takeAnswer_reqTmo (a : Option Byte) (q : List (Option Byte)) (s : State) : (takeAnswer a q s).reqTmo = s.reqTmo := rfl
@[simp] theorem takeAnswer_txBuf (a : Option Byte) (q : List (Option Byte)) (s : State) : (takeAnswer a q s).txBuf = s.txBuf := rfl
@[simp] theorem takeAnswer_txLen (a : Option Byte) (q : List (Option Byte)) (s : State) : (takeAnswer a q s).txLen = s.txLen := rfl
@[simp] theorem takeAnswer_rxBuf (a : Option Byte) (q : List (Option Byte)) (s : State) : (takeAnswer a q s).rxBuf = s.rxBuf := rfl
@[simp] theorem takeAnswer_rxLen (a : Option Byte) (q : List (Option Byte)) (s : State) : (takeAnswer a q s).rxLen = s.rxLen := rfl
@[simp] theorem takeAnswer_faultCode (a : Option Byte) (q : List (Option Byte)) (s : State) : (takeAnswer a q s).faultCode = s.faultCode := rfl
@[simp] theorem takeAnswer_faultExp (a : Option Byte) (q : List (Option Byte)) (s : State) : (takeAnswer a q s).faultExp = s.faultExp := rfl
@[simp] theorem takeAnswer_faultAct (a : Option Byte) (q : List (Option Byte)) (s : State) : (takeAnswer a q s).faultAct = s.faultAct := rfl
@[simp] theorem takeAnswer_cmd (a : Option Byte) (q : List (Option Byte)) (s : State) : (takeAnswer a q s).cmd = s.cmd := rfl
@[simp] theorem takeAnswer_rxs (a : Option Byte) (q : List (Option Byte)) (s : State) : (takeAnswer a q s).rxs = q := rfl
@[simp] theorem takeAnswer_rxMore (a : Option Byte) (q : List (Option Byte)) (s : State) : (takeAnswer a q s).rxMore = s.rxMore := rfl
@[simp] theorem takeAnswer_log (a : Option Byte) (q : List (Option Byte)) (s : State) : (takeAnswer a q s).log = s.log ++ [.rxRead a] := rfl
@[simp] theorem takeAnswer_resetIn (a : Option Byte) (q : List (Option Byte)) (s : State) : (takeAnswer a q s).resetIn = s.resetIn := rfl
@[simp] theorem takeAnswer_issue (a : Option Byte) (q : List (Option Byte)) (s : State) : (takeAnswer a q s).issue = s.issue := rfl

/-! ### `storeRx` -/

@[simp] theorem storeRx_cfg (b : Byte) (s : State) : (storeRx b s).cfg = s.cfg := rfl
@[simp] theorem storeRx_curPan (b : Byte) (s : State) : (storeRx b s).curPan = s.curPan := rfl
@[simp] theorem storeRx_curTilt (b : Byte) (s : State) : (storeRx b s).curTilt = s.curTilt := rfl
@[simp] theorem storeRx_destPan (b : Byte) (s : State) : (storeRx b s).destPan = s.destPan := rfl
@[simp] theorem storeRx_destTilt (b : Byte) (s : State) : (storeRx b s).destTilt = s.destTilt := rfl
@[simp] theorem storeRx_phase (b : Byte) (s : State) : (storeRx b s).phase = s.phase := rfl
@[simp] theorem storeRx_op (b : Byte) (s : State) : (storeRx b s).op = s.op := rfl
@[simp] theorem storeRx_stage (b : Byte) (s : State) : (storeRx b s).stage = s.stage := rfl
@[simp] theorem storeRx_curCmd (b : Byte) (s : State) : (storeRx b s).curCmd = s.curCmd := rfl
@[simp] theorem storeRx_attempt (b : Byte) (s : State) : (storeRx b s).attempt = s.attempt := rfl
@[simp] theorem storeRx_win (b : Byte) (s : State) : (storeRx b s).win = s.win := rfl
@[simp] theorem storeRx_startupN (b : Byte) (s : State) : (storeRx b s).startupN = s.startupN := rfl
@[simp] theorem storeRx_reqTmo (b : Byte) (s : State) : (storeRx b s).reqTmo = s.reqTmo := rfl
@[simp] theorem storeRx_txBuf (b : Byte) (s : State) : (storeRx b s).txBuf = s.txBuf := rfl
@[simp] theorem storeRx_txLen (b : Byte) (s : State) : (storeRx b s).txLen = s.txLen := rfl
@[simp] theorem storeRx_rxBuf (b : Byte) (s : State) : (storeRx b s).rxBuf = s.rxBuf.write s.rxLen b := rfl
@[simp] theorem storeRx_rxLen (b : Byte) (s : State) : (storeRx b s).rxLen = s.rxLen + 1 := rfl
@[simp] theorem storeRx_faultCode (b : Byte) (s : State) : (storeRx b s).faultCode = s.faultCode := rfl
@[simp] theorem storeRx_faultExp (b : Byte) (s : State) : (storeRx b s).faultExp = s.faultExp := rfl
@[simp] theorem storeRx_faultAct (b : Byte) (s : State) : (storeRx b s).faultAct = s.faultAct := rfl
@[simp] theorem storeRx_cmd (b : Byte) (s : State) : (storeRx b s).cmd = s.cmd := rfl
@[simp] theorem storeRx_rxs (b : Byte) (s : State) : (storeRx b s).rxs = s.rxs := rfl
@[simp] theorem storeRx_rxMore (b : Byte) (s : State) : (storeRx b s).rxMore = s.rxMore := rfl
@[simp] theorem storeRx_log (b : Byte) (s : State) : (storeRx b s).log = s.log := rfl
@[simp] theorem storeRx_resetIn (b : Byte) (s : State) : (storeRx b s).resetIn = s.resetIn := rfl
@[simp] theorem storeRx_issue (b : Byte) (s : State) : (storeRx b s).issue = s.issue := rfl

/-! ### `applyReset` -/

@[simp] theorem applyReset_cfg (s : State) : (applyReset s).cfg = s.cfg := rfl
@[simp] theorem applyReset_curPan (s : State) : (applyReset s).curPan = State.reset.curPan := rfl
@[simp] theorem applyReset_curTilt (s : State) : (applyReset s).curTilt = State.reset.curTilt := rfl
@[simp] theorem applyReset_destPan (s : State) : (applyReset s).destPan = State.reset.destPan := rfl
@[simp] theorem applyReset_destTilt (s : State) : (applyReset s).destTilt = State.reset.destTilt := rfl
@[simp] theorem applyReset_phase (s : State) : (applyReset s).phase = State.reset.phase := rfl
@[simp] theorem applyReset_op (s : State) : (applyReset s).op = State.reset.op := rfl
@[simp] theorem applyReset_stage (s : State) : (applyReset s).stage = State.reset.stage := rfl
@[simp] theorem applyReset_curCmd (s : State) : (applyReset s).curCmd = State.reset.curCmd := rfl
@[simp] theorem applyReset_attempt (s : State) : (applyReset s).attempt = State.reset.attempt := rfl
@[simp] theorem applyReset_win (s : State) : (applyReset s).win = State.reset.win := rfl
@[simp] theorem applyReset_startupN (s : State) : (applyReset s).startupN = State.reset.startupN := rfl
@[simp] theorem applyReset_reqTmo (s : State) : (applyReset s).reqTmo = State.reset.reqTmo := rfl
@[simp] theorem applyReset_txBuf (s : State) : (applyReset s).txBuf = State.reset.txBuf := rfl
@[simp] theorem applyReset_txLen (s : State) : (applyReset s).txLen = State.reset.txLen := rfl
@[simp] theorem applyReset_rxBuf (s : State) : (applyReset s).rxBuf = State.reset.rxBuf := rfl
@[simp] theorem applyReset_rxLen (s : State) : (applyReset s).rxLen = State.reset.rxLen := rfl
@[simp] theorem applyReset_faultCode (s : State) : (applyReset s).faultCode = State.reset.faultCode := rfl
@[simp] theorem applyReset_faultExp (s : State) : (applyReset s).faultExp = State.reset.faultExp := rfl
@[simp] theorem applyReset_faultAct (s : State) : (applyReset s).faultAct = State.reset.faultAct := rfl
@[simp] theorem applyReset_cmd (s : State) : (applyReset s).cmd = s.cmd := rfl
@[simp] theorem applyReset_rxs (s : State) : (applyReset s).rxs = s.rxs := rfl
@[simp] theorem applyReset_rxMore (s : State) : (applyReset s).rxMore = s.rxMore := rfl
@[simp] theorem applyReset_log (s : State) : (applyReset s).log = s.log := rfl
@[simp] theorem applyReset_resetIn (s : State) : (applyReset s).resetIn = State.reset.resetIn := rfl
@[simp] theorem applyReset_issue (s : State) : (applyReset s).issue = State.reset.issue := rfl

/-! ### `deliver` -/

@[simp] theorem deliver_cfg (s : State) : (deliver s).cfg = s.cfg := by unfold deliver; split <;> rfl
@[simp] theorem deliver_curPan (s : State) : (deliver s).curPan = s.curPan := by unfold deliver; split <;> rfl
@[simp] theorem deliver_curTilt (s : State) : (deliver s).curTilt = s.curTilt := by unfold deliver; split <;> rfl
@[simp] theorem deliver_destPan (s : State) : (deliver s).destPan = s.destPan := by unfold deliver; split <;> rfl
@[simp] theorem deliver_destTilt (s : State) : (deliver s).destTilt = s.destTilt := by unfold deliver; split <;> rfl
@[simp] theorem deliver_phase (s : State) : (deliver s).phase = s.phase := by unfold deliver; split <;> rfl
@[simp] theorem deliver_op (s : State) : (deliver s).op = s.op := by unfold deliver; split <;> rfl
@[simp] theorem deliver_stage (s : State) : (deliver s).stage = s.stage := by unfold deliver; split <;> rfl
@[simp] theorem deliver_curCmd (s : State) : (deliver s).curCmd = s.curCmd := by unfold deliver; split <;> rfl
@[simp] theorem deliver_attempt (s : State) : (deliver s).attempt = s.attempt := by unfold deliver; split <;> rfl
@[simp] theorem deliver_win (s : State) : (deliver s).win = s.win := by unfold deliver; split <;> rfl
@[simp] theorem deliver_startupN (s : State) : (deliver s).startupN = s.startupN := by unfold deliver; split <;> rfl
@[simp] theorem deliver_reqTmo (s : State) : (deliver s).reqTmo = s.reqTmo := by unfold deliver; split <;> rfl
@[simp] theorem deliver_txBuf (s : State) : (deliver s).txBuf = s.txBuf := by unfold deliver; split <;> rfl
@[simp] theorem deliver_txLen (s : State) : (deliver s).txLen = s.txLen := by unfold deliver; split <;> rfl
@[simp] theorem deliver_rxBuf (s : State) : (deliver s).rxBuf = s.rxBuf := by unfold deliver; split <;> rfl
@[simp] theorem deliver_rxLen (s : State) : (deliver s).rxLen = s.rxLen := by unfold deliver; split <;> rfl
@[simp] theorem deliver_faultCode (s : State) : (deliver s).faultCode = s.faultCode := by unfold deliver; split <;> rfl
@[simp] theorem deliver_faultExp (s : State) : (deliver s).faultExp = s.faultExp := by unfold deliver; split <;> rfl
@[simp] theorem deliver_faultAct (s : State) : (deliver s).faultAct = s.faultAct := by unfold deliver; split <;> rfl
@[simp] theorem deliver_cmd (s : State) : (deliver s).cmd = s.cmd := by unfold deliver; split <;> rfl
@[simp] theorem deliver_log (s : State) : (deliver s).log = s.log := by unfold deliver; split <;> rfl
@[simp] theorem deliver_resetIn (s : State) : (deliver s).resetIn = s.resetIn := by unfold deliver; split <;> rfl
@[simp] theorem deliver_issue (s : State) : (deliver s).issue = s.issue := by unfold deliver; split <;> rfl

/-! ### `recordFault` -/

@[simp] theorem recordFault_cfg (e : Raise) (s : State) : (recordFault e s).cfg = s.cfg := by cases e <;> rfl
@[simp] theorem recordFault_curPan (e : Raise) (s : State) : (recordFault e s).curPan = s.curPan := by cases e <;> rfl
@[simp] theorem recordFault_curTilt (e : Raise) (s : State) : (recordFault e s).curTilt = s.curTilt := by cases e <;> rfl
@[simp] theorem recordFault_destPan (e : Raise) (s : State) : (recordFault e s).destPan = s.destPan := by cases e <;> rfl
@[simp] theorem recordFault_destTilt (e : Raise) (s : State) : (recordFault e s).destTilt = s.destTilt := by cases e <;> rfl
@[simp] theorem recordFault_phase (e : Raise) (s : State) : (recordFault e s).phase = s.phase := by cases e <;> rfl
@[simp] theorem recordFault_op (e : Raise) (s : State) : (recordFault e s).op = s.op := by cases e <;> rfl
@[simp] theorem recordFault_stage (e : Raise) (s : State) : (recordFault e s).stage = s.stage := by cases e <;> rfl
@[simp] theorem recordFault_curCmd (e : Raise) (s : State) : (recordFault e s).curCmd = s.curCmd := by cases e <;> rfl
@[simp] theorem recordFault_attempt (e : Raise) (s : State) : (recordFault e s).attempt = s.attempt := by cases e <;> rfl
@[simp] theorem recordFault_win (e : Raise) (s : State) : (recordFault e s).win = s.win := by cases e <;> rfl
@[simp] theorem recordFault_startupN (e : Raise) (s : State) : (recordFault e s).startupN = s.startupN := by cases e <;> rfl
@[simp] theorem recordFault_reqTmo (e : Raise) (s : State) : (recordFault e s).reqTmo = s.reqTmo := by cases e <;> rfl
@[simp] theorem recordFault_txBuf (e : Raise) (s : State) : (recordFault e s).txBuf = s.txBuf := by cases e <;> rfl
@[simp] theorem recordFault_txLen (e : Raise) (s : State) : (recordFault e s).txLen = s.txLen := by cases e <;> rfl
@[simp] theorem recordFault_rxBuf (e : Raise) (s : State) : (recordFault e s).rxBuf = s.rxBuf := by cases e <;> rfl
@[simp] theorem recordFault_rxLen (e : Raise) (s : State) : (recordFault e s).rxLen = s.rxLen := by cases e <;> rfl
@[simp] theorem recordFault_faultCode (e : Raise) (s : State) : (recordFault e s).faultCode = faultCodeOf e := by cases e <;> rfl
@[simp] theorem recordFault_cmd (e : Raise) (s : State) : (recordFault e s).cmd = s.cmd := by cases e <;> rfl
@[simp] theorem recordFault_rxs (e : Raise) (s : State) : (recordFault e s).rxs = s.rxs := by cases e <;> rfl
@[simp] theorem recordFault_rxMore (e : Raise) (s : State) : (recordFault e s).rxMore = s.rxMore := by cases e <;> rfl
@[simp] theorem recordFault_log (e : Raise) (s : State) : (recordFault e s).log = s.log := by cases e <;> rfl
@[simp] theorem recordFault_resetIn (e : Raise) (s : State) : (recordFault e s).resetIn = s.resetIn := by cases e <;> rfl
@[simp] theorem recordFault_issue (e : Raise) (s : State) : (recordFault e s).issue = s.issue := by cases e <;> rfl

/-! ### `updateRuntime` -/

@[simp] theorem updateRuntime_cfg (r : StatusResponse) (s : State) : (updateRuntime r s).cfg = s.cfg := by unfold updateRuntime; split <;> rfl
@[simp] theorem updateRuntime_phase (r : StatusResponse) (s : State) : (updateRuntime r s).phase = s.phase := by unfold updateRuntime; split <;> rfl
@[simp] theorem updateRuntime_op (r : StatusResponse) (s : State) : (updateRuntime r s).op = s.op := by unfold updateRuntime; split <;> rfl
@[simp] theorem updateRuntime_stage (r : StatusResponse) (s : State) : (updateRuntime r s).stage = s.stage := by unfold updateRuntime; split <;> rfl
@[simp] theorem updateRuntime_curCmd (r : StatusResponse) (s : State) : (updateRuntime r s).curCmd = s.curCmd := by unfold updateRuntime; split <;> rfl
@[simp] theorem updateRuntime_attempt (r : StatusResponse) (s : State) : (updateRuntime r s).attempt = s.attempt := by unfold updateRuntime; split <;> rfl
@[simp] theorem updateRuntime_win (r : StatusResponse) (s : State) : (updateRuntime r s).win = s.win := by unfold updateRuntime; split <;> rfl
@[simp] theorem updateRuntime_startupN (r : StatusResponse) (s : State) : (updateRuntime r s).startupN = s.startupN := by unfold updateRuntime; split <;> rfl
@[simp] theorem updateRuntime_reqTmo (r : StatusResponse) (s : State) : (updateRuntime r s).reqTmo = s.reqTmo := by unfold updateRuntime; split <;> rfl
@[simp] theorem updateRuntime_txBuf (r : StatusResponse) (s : State) : (updateRuntime r s).txBuf = s.txBuf := by unfold updateRuntime; split <;> rfl
@[simp] theorem updateRuntime_txLen (r : StatusResponse) (s : State) : (updateRuntime r s).txLen = s.txLen := by unfold updateRuntime; split <;> rfl
@[simp] theorem updateRuntime_rxBuf (r : StatusResponse) (s : State) : (updateRuntime r s).rxBuf = s.rxBuf := by unfold updateRuntime; split <;> rfl
@[simp] theorem updateRuntime_rxLen (r : StatusResponse) (s : State) : (updateRuntime r s).rxLen = s.rxLen := by unfold updateRuntime; split <;> rfl
@[simp] theorem updateRuntime_faultCode (r : StatusResponse) (s : State) : (updateRuntime r s).faultCode = s.faultCode := by unfold updateRuntime; split <;> rfl
@[simp] theorem updateRuntime_faultExp (r : StatusResponse) (s : State) : (updateRuntime r s).faultExp = s.faultExp := by unfold updateRuntime; split <;> rfl
@[simp] theorem updateRuntime_faultAct (r : StatusResponse) (s : State) : (updateRuntime r s).faultAct = s.faultAct := by unfold updateRuntime; split <;> rfl
@[simp] theorem updateRuntime_cmd (r : StatusResponse) (s : State) : (updateRuntime r s).cmd = s.cmd := by unfold updateRuntime; split <;> rfl
@[simp] theorem updateRuntime_rxs (r : StatusResponse) (s : State) : (updateRuntime r s).rxs = s.rxs := by unfold updateRuntime; split <;> rfl
@[simp] theorem updateRuntime_rxMore (r : StatusResponse) (s : State) : (updateRuntime r s).rxMore = s.rxMore := by unfold updateRuntime; split <;> rfl
@[simp] theorem updateRuntime_log (r : StatusResponse) (s : State) : (updateRuntime r s).log = s.log := by unfold updateRuntime; split <;> rfl
@[simp] theorem updateRuntime_resetIn (r : StatusResponse) (s : State) : (updateRuntime r s).resetIn = s.resetIn := by unfold updateRuntime; split <;> rfl
@[simp] theorem updateRuntime_issue (r : StatusResponse) (s : State) : (updateRuntime r s).issue = s.issue := by unfold updateRuntime; split <;> rfl

/-! ### `updateFor` -/

@[simp] theorem updateFor_cfg (r : Reply) (s : State) : (updateFor r s).cfg = s.cfg := by cases r <;> simp [updateFor]
@[simp] theorem updateFor_phase (r : Reply) (s : State) : (updateFor r s).phase = s.phase := by cases r <;> simp [updateFor]
@[simp] theorem updateFor_op (r : Reply) (s : State) : (updateFor r s).op = s.op := by cases r <;> simp [updateFor]
@[simp] theorem updateFor_stage (r : Reply) (s : State) : (updateFor r s).stage = s.stage := by cases r <;> simp [updateFor]
@[simp] theorem updateFor_curCmd (r : Reply) (s : State) : (updateFor r s).curCmd = s.curCmd := by cases r <;> simp [updateFor]
@[simp] theorem updateFor_attempt (r : Reply) (s : State) : (updateFor r s).attempt = s.attempt := by cases r <;> simp [updateFor]
@[simp] theorem updateFor_win (r : Reply) (s : State) : (updateFor r s).win = s.win := by cases r <;> simp [updateFor]
@[simp] theorem updateFor_startupN (r : Reply) (s : State) : (updateFor r s).startupN = s.startupN := by cases r <;> simp [updateFor]
@[simp] theorem updateFor_reqTmo (r : Reply) (s : State) : (updateFor r s).reqTmo = s.reqTmo := by cases r <;> simp [updateFor]
@[simp] theorem updateFor_txBuf (r : Reply) (s : State) : (updateFor r s).txBuf = s.txBuf := by cases r <;> simp [updateFor]
@[simp] theorem updateFor_txLen (r : Reply) (s : State) : (updateFor r s).txLen = s.txLen := by cases r <;> simp [updateFor]
@[simp] theorem updateFor_rxBuf (r : Reply) (s : State) : (updateFor r s).rxBuf = s.rxBuf := by cases r <;> simp [updateFor]
@[simp] theorem updateFor_rxLen (r : Reply) (s : State) : (updateFor r s).rxLen = s.rxLen := by cases r <;> simp [updateFor]
@[simp] theorem updateFor_faultCode (r : Reply) (s : State) : (updateFor r s).faultCode = s.faultCode := by cases r <;> simp [updateFor]
@[simp] theorem updateFor_faultExp (r : Reply) (s : State) : (updateFor r s).faultExp = s.faultExp := by cases r <;> simp [updateFor]
@[simp] theorem updateFor_faultAct (r : Reply) (s : State) : (updateFor r s).faultAct = s.faultAct := by cases r <;> simp [updateFor]
@[simp] theorem updateFor_cmd (r : Reply) (s : State) : (updateFor r s).cmd = s.cmd := by cases r <;> simp [updateFor]
@[simp] theorem updateFor_rxs (r : Reply) (s : State) : (updateFor r s).rxs = s.rxs := by cases r <;> simp [updateFor]
@[simp] theorem updateFor_rxMore (r : Reply) (s : State) : (updateFor r s).rxMore = s.rxMore := by cases r <;> simp [updateFor]
@[simp] theorem updateFor_log (r : Reply) (s : State) : (updateFor r s).log = s.log := by cases r <;> simp [updateFor]
@[simp] theorem updateFor_resetIn (r : Reply) (s : State) : (updateFor r s).resetIn = s.resetIn := by cases r <;> simp [updateFor]
@[simp] theorem updateFor_issue (r : Reply) (s : State) : (updateFor r s).issue = s.issue := by cases r <;> simp [updateFor]

/-! ### `notifyAll` -/

/-- Several notifications change the log alone, and append themselves to it in order (R217). -/
theorem notifyAll_eq (ns : List Notification) (s : State) :
    notifyAll ns s = { s with log := s.log ++ ns.map .note } := by
  induction ns generalizing s with
  | nil => simp [notifyAll]
  | cons n ns ih => simp [notifyAll, ih, notify, State.act]

/-! ### `notifyAll` -/

@[simp] theorem notifyAll_cfg (ns : List Notification) (s : State) : (notifyAll ns s).cfg = s.cfg := by rw [notifyAll_eq]
@[simp] theorem notifyAll_curPan (ns : List Notification) (s : State) : (notifyAll ns s).curPan = s.curPan := by rw [notifyAll_eq]
@[simp] theorem notifyAll_curTilt (ns : List Notification) (s : State) : (notifyAll ns s).curTilt = s.curTilt := by rw [notifyAll_eq]
@[simp] theorem notifyAll_destPan (ns : List Notification) (s : State) : (notifyAll ns s).destPan = s.destPan := by rw [notifyAll_eq]
@[simp] theorem notifyAll_destTilt (ns : List Notification) (s : State) : (notifyAll ns s).destTilt = s.destTilt := by rw [notifyAll_eq]
@[simp] theorem notifyAll_phase (ns : List Notification) (s : State) : (notifyAll ns s).phase = s.phase := by rw [notifyAll_eq]
@[simp] theorem notifyAll_op (ns : List Notification) (s : State) : (notifyAll ns s).op = s.op := by rw [notifyAll_eq]
@[simp] theorem notifyAll_stage (ns : List Notification) (s : State) : (notifyAll ns s).stage = s.stage := by rw [notifyAll_eq]
@[simp] theorem notifyAll_curCmd (ns : List Notification) (s : State) : (notifyAll ns s).curCmd = s.curCmd := by rw [notifyAll_eq]
@[simp] theorem notifyAll_attempt (ns : List Notification) (s : State) : (notifyAll ns s).attempt = s.attempt := by rw [notifyAll_eq]
@[simp] theorem notifyAll_win (ns : List Notification) (s : State) : (notifyAll ns s).win = s.win := by rw [notifyAll_eq]
@[simp] theorem notifyAll_startupN (ns : List Notification) (s : State) : (notifyAll ns s).startupN = s.startupN := by rw [notifyAll_eq]
@[simp] theorem notifyAll_reqTmo (ns : List Notification) (s : State) : (notifyAll ns s).reqTmo = s.reqTmo := by rw [notifyAll_eq]
@[simp] theorem notifyAll_txBuf (ns : List Notification) (s : State) : (notifyAll ns s).txBuf = s.txBuf := by rw [notifyAll_eq]
@[simp] theorem notifyAll_txLen (ns : List Notification) (s : State) : (notifyAll ns s).txLen = s.txLen := by rw [notifyAll_eq]
@[simp] theorem notifyAll_rxBuf (ns : List Notification) (s : State) : (notifyAll ns s).rxBuf = s.rxBuf := by rw [notifyAll_eq]
@[simp] theorem notifyAll_rxLen (ns : List Notification) (s : State) : (notifyAll ns s).rxLen = s.rxLen := by rw [notifyAll_eq]
@[simp] theorem notifyAll_faultCode (ns : List Notification) (s : State) : (notifyAll ns s).faultCode = s.faultCode := by rw [notifyAll_eq]
@[simp] theorem notifyAll_faultExp (ns : List Notification) (s : State) : (notifyAll ns s).faultExp = s.faultExp := by rw [notifyAll_eq]
@[simp] theorem notifyAll_faultAct (ns : List Notification) (s : State) : (notifyAll ns s).faultAct = s.faultAct := by rw [notifyAll_eq]
@[simp] theorem notifyAll_cmd (ns : List Notification) (s : State) : (notifyAll ns s).cmd = s.cmd := by rw [notifyAll_eq]
@[simp] theorem notifyAll_rxs (ns : List Notification) (s : State) : (notifyAll ns s).rxs = s.rxs := by rw [notifyAll_eq]
@[simp] theorem notifyAll_rxMore (ns : List Notification) (s : State) : (notifyAll ns s).rxMore = s.rxMore := by rw [notifyAll_eq]
@[simp] theorem notifyAll_log (ns : List Notification) (s : State) : (notifyAll ns s).log = s.log ++ ns.map .note := by rw [notifyAll_eq]
@[simp] theorem notifyAll_resetIn (ns : List Notification) (s : State) : (notifyAll ns s).resetIn = s.resetIn := by rw [notifyAll_eq]
@[simp] theorem notifyAll_issue (ns : List Notification) (s : State) : (notifyAll ns s).issue = s.issue := by rw [notifyAll_eq]

/-! ### The registers with a case of their own -/

@[simp] theorem recordFault_faultExp_opcode (x a : Byte) (s : State) : (recordFault (.opcode x a) s).faultExp = x := rfl
@[simp] theorem recordFault_faultAct_opcode (x a : Byte) (s : State) : (recordFault (.opcode x a) s).faultAct = a := rfl

/-- DES set: the destination pair is written and the current pair kept (R190). -/
theorem updateRuntime_of_des (r : StatusResponse) (s : State) (h : desBit s.cfg r.generalStatus = true) :
    updateRuntime r s = { s with destPan := GenReg.set r.pan, destTilt := GenReg.set r.tilt } := by
  simp [updateRuntime, h]

/-- DES clear: the current pair is written and the destination pair kept (R190). -/
theorem updateRuntime_of_not_des (r : StatusResponse) (s : State) (h : desBit s.cfg r.generalStatus = false) :
    updateRuntime r s = { s with curPan := GenReg.set r.pan, curTilt := GenReg.set r.tilt } := by
  simp [updateRuntime, h]

end Sys2Proof.Machine
end

