-- ==== Sys2Proof/Laws/Ops.lean ====
section
/-! SUPPORT. One lemma per shared operation that says once everything it can do. -/

namespace Sys2Proof.Machine

/-! ### Starting a transaction (R181) -/

/-- Everything `StartXact` can do (R181). -/
theorem startXact_cases (c : Cmd) (a : Args) (s : State) :
    (∃ f, assemble s.cfg c a = .ok (some f) ∧ startXact c a s = .started (sendFrame c f (clearFault s))) ∨
    (c = .setCommunicationTimeout ∧ assemble s.cfg c a = .ok none ∧ startXact c a s = .rejected (clearFault s)) ∨
    ((c = .moveAbsolute ∨ c = .moveDelta) ∧ ∃ v, assemble s.cfg c a = .error (.range v) ∧
      startXact c a s = .raised (.range v) (clearFault s)) := by
  rcases assemble_cases s.cfg c a with ⟨d, _, _, h⟩ | ⟨hc, h⟩ | ⟨hc, v, h⟩
  · exact .inl ⟨_, h, by simp [startXact, h]⟩
  · exact .inr (.inl ⟨hc, h, by simp [startXact, h]⟩)
  · exact .inr (.inr ⟨hc, v, h, by simp [startXact, h]⟩)

/-- A command whose frame assembles starts (R181). -/
theorem startXact_of_ok {c : Cmd} {a : Args} {s : State} {f : List Byte} (h : assemble s.cfg c a = .ok (some f)) :
    startXact c a s = .started (sendFrame c f (clearFault s)) := by simp [startXact, h]

/-- `get_status` always starts (R158). -/
theorem startXact_getStatus (s : State) : startXact .getStatus Args.empty s =
    .started (sendFrame .getStatus (frameOf s.cfg (0x31 :: statusRequestData false)) (clearFault s)) := rfl

/-- Everything the meaning of a wire command can do: send, finish with a rejection, or take E_RANGE, which STARTUP does not
tolerate. -/
theorem issueXact_cases (c : Cmd) (a : Args) (s : State) :
    (∃ f, assemble s.cfg c a = .ok (some f) ∧ issueXact c a s = .next (sendFrame c f (clearFault s))) ∨
    (c = .setCommunicationTimeout ∧ assemble s.cfg c a = .ok none ∧
      issueXact c a s = .next (finish .rejected (notify (.tmoRange a.tmo) (clearFault s)))) ∨
    ((c = .moveAbsolute ∨ c = .moveDelta) ∧ ∃ v, assemble s.cfg c a = .error (.range v) ∧
      issueXact c a s = .next (finish (.fault (.range v)) (recordFault (.range v) (clearFault s)))) := by
  rcases startXact_cases c a s with ⟨f, h, e⟩ | ⟨hc, h, e⟩ | ⟨hc, v, h, e⟩
  · exact .inl ⟨f, h, by simp [issueXact, e]⟩
  · exact .inr (.inl ⟨hc, h, by simp [issueXact, e]⟩)
  · exact .inr (.inr ⟨hc, v, h, by simp [issueXact, e, onFault, tolerated]⟩)

/-- `get_status` sends (R158). -/
theorem issueXact_getStatus (s : State) : issueXact .getStatus Args.empty s =
    .next (sendFrame .getStatus (frameOf s.cfg (0x31 :: statusRequestData false)) (clearFault s)) := rfl

/-- `get_communication_timeout` sends (R163). -/
theorem issueXact_getCommunicationTimeout (s : State) : issueXact .getCommunicationTimeout Args.empty s =
    .next (sendFrame .getCommunicationTimeout (frameOf s.cfg (0x96 :: queryData)) (clearFault s)) := rfl

/-- Everything SET_TMO's acceptance can do (R224). -/
theorem execOpSetTmo_cases (v : Int) (s : State) :
    (∃ f, assemble s.cfg .setCommunicationTimeout ⟨none, none, v⟩ = .ok (some f) ∧ execOpSetTmo v s =
      .next { sendFrame .setCommunicationTimeout f (clearFault (accept (hostOpCode .setTmo) s)) with
        reqTmo := BitVec.ofInt 7 v }) ∨
    (assemble s.cfg .setCommunicationTimeout ⟨none, none, v⟩ = .ok none ∧ execOpSetTmo v s =
      .next (finish .rejected (notify (.tmoRange v) (clearFault (accept (hostOpCode .setTmo) s))))) := by
  rcases startXact_cases .setCommunicationTimeout ⟨none, none, v⟩ (accept (hostOpCode .setTmo) s) with
    ⟨f, h, e⟩ | ⟨_, h, e⟩ | ⟨hc, _⟩
  · exact .inl ⟨f, h, by simp [execOpSetTmo, e]⟩
  · exact .inr ⟨h, by simp [execOpSetTmo, e]⟩
  · simp at hc

/-! ### Taking a fault (R266) -/

/-- The tolerated branch: E_STARTUP when the attempts are used up, another `get_status` otherwise (R226). -/
theorem startupRetry_eq (e : Raise) (s : State) : startupRetry e s =
    if reached s.cfg.startupMaxAttempts s.startupN then finish (.fault (.startup s.startupN (faultCodeOf e))) s
    else sendFrame .getStatus (frameOf s.cfg (0x31 :: statusRequestData false))
      (clearFault { s with startupN := s.startupN + 1 }) := rfl

/-- A fault that is not tolerated, or not under STARTUP, ends the operation (R266). -/
theorem onFault_ends {e : Raise} {s : State} (h : ¬(s.op = hostOpCode .startup ∧ tolerated e = true)) :
    onFault e s = finish (.fault e) (recordFault e s) := by rw [onFault, if_neg h]

/-- Everything `OnFault` can do (R266, R226). -/
theorem onFault_cases (e : Raise) (s : State) :
    (¬(s.op = hostOpCode .startup ∧ tolerated e = true) ∧ onFault e s = finish (.fault e) (recordFault e s)) ∨
    ((s.op = hostOpCode .startup ∧ tolerated e = true) ∧ reached s.cfg.startupMaxAttempts s.startupN = true ∧
      onFault e s = finish (.fault (.startup s.startupN (faultCodeOf e))) (recordFault e s)) ∨
    ((s.op = hostOpCode .startup ∧ tolerated e = true) ∧ reached s.cfg.startupMaxAttempts s.startupN = false ∧
      onFault e s = sendFrame .getStatus (frameOf s.cfg (0x31 :: statusRequestData false))
        (clearFault { recordFault e s with startupN := s.startupN + 1 })) := by
  by_cases h : s.op = hostOpCode .startup ∧ tolerated e = true
  · cases hr : reached s.cfg.startupMaxAttempts s.startupN
    · exact .inr (.inr ⟨h, rfl, by simp [onFault, h, startupRetry_eq, hr]⟩)
    · exact .inr (.inl ⟨h, rfl, by simp [onFault, h, startupRetry_eq, hr]⟩)
  · exact .inl ⟨h, onFault_ends h⟩

/-! ### What follows a completed transaction (R189, R212) -/

/-- One notification is a list of one. -/
theorem notify_eq_notifyAll (n : Notification) (s : State) : notify n s = notifyAll [n] s := rfl

/-- Everything `Continue` can do: stop on a combination that cannot occur, finish after some notifications, or start the
next transaction of the operation (R212). -/
theorem continueOp_cases (r : Reply) (s : State) :
    continueOp r s = .fault .noContinuation ∨
    (∃ ns x, continueOp r s = .next (finish x (notifyAll ns s))) ∨
    (∃ g c f, ((c = .getStatus ∧ ∃ o, hostOpOf s.op = some o ∧ (o = .moveAbsolute ∨ o = .moveDelta ∨ o = .home)) ∨
        (c = .getCommunicationTimeout ∧ hostOpOf s.op = some .setTmo)) ∧
      g = Stage.second ∧ assemble s.cfg c Args.empty = .ok (some f) ∧
      continueOp r s = .next (sendFrame c f (clearFault { s with stage := g }))) := by
  have hpoll : ∀ x, s.stage = .second → (∃ ns y, continuePoll x s = .next (finish y (notifyAll ns s))) ∨
      continuePoll x s = .next (sendFrame .getStatus (frameOf s.cfg (0x31 :: statusRequestData false))
        (clearFault { s with stage := .second })) := by
    intro x hs
    unfold continuePoll
    dsimp only
    split
    · exact .inl ⟨_, _, rfl⟩
    · split
      · right
        rw [issueXact_getStatus]
        cases s
        simp_all
      · exact .inl ⟨[], _, rfl⟩
  have hmove : ∀ o, hostOpOf s.op = some o → (o = .moveAbsolute ∨ o = .moveDelta ∨ o = .home) →
      continueMoveOp r s = .fault .noContinuation ∨ (∃ ns x, continueMoveOp r s = .next (finish x (notifyAll ns s))) ∨
      (∃ g c f, ((c = .getStatus ∧ ∃ o, hostOpOf s.op = some o ∧ (o = .moveAbsolute ∨ o = .moveDelta ∨ o = .home)) ∨
          (c = .getCommunicationTimeout ∧ hostOpOf s.op = some .setTmo)) ∧
        g = Stage.second ∧ assemble s.cfg c Args.empty = .ok (some f) ∧
        continueMoveOp r s = .next (sendFrame c f (clearFault { s with stage := g }))) := by
    intro o ho hm
    cases hg : s.stage <;> cases r <;> simp only [continueMoveOp, hg]
    case first.status => exact .inr (.inr ⟨_, .getStatus, _, .inl ⟨rfl, o, ho, hm⟩, rfl, rfl, rfl⟩)
    case first.nothing => exact .inr (.inr ⟨_, .getStatus, _, .inl ⟨rfl, o, ho, hm⟩, rfl, rfl, rfl⟩)
    case first.timeout => exact .inl trivial
    case second.status x =>
      rcases hpoll x hg with h | h
      · exact .inr (.inl h)
      · exact .inr (.inr ⟨_, .getStatus, _, .inl ⟨rfl, o, ho, hm⟩, rfl, rfl, h⟩)
    case second.timeout => exact .inl trivial
    case second.nothing => exact .inl trivial
  unfold continueOp
  cases ho : hostOpOf s.op with
  | none => exact .inl rfl
  | some o =>
    cases o
    case moveAbsolute => simpa [ho] using hmove _ ho (.inl rfl)
    case moveDelta => simpa [ho] using hmove _ ho (.inr (.inl rfl))
    case home => simpa [ho] using hmove _ ho (.inr (.inr rfl))
    case setTmo =>
      dsimp only
      cases hg : s.stage <;> cases r <;> simp only [continueSetTmo, hg]
      case first.timeout => exact .inr (.inr ⟨_, .getCommunicationTimeout, _, .inr ⟨rfl, by trivial⟩, rfl, rfl, rfl⟩)
      case second.timeout t =>
        right; left
        unfold continueReadBack
        split
        · exact ⟨[_], _, rfl⟩
        · exact ⟨[], _, rfl⟩
      all_goals exact .inl trivial
    case faultReset =>
      dsimp only
      cases hg : s.stage <;> cases r <;> dsimp only
      case first.status x =>
        right; left
        unfold continueReset
        dsimp only
        split
        · exact ⟨[], _, rfl⟩
        · exact ⟨[_], _, rfl⟩
      all_goals exact .inl rfl
    all_goals
      dsimp only
      cases hg : s.stage <;> cases r <;> dsimp only
      all_goals first
        | exact .inl rfl
        | exact .inr (.inl ⟨[], _, rfl⟩)

/-! ### The small steps -/

/-- Everything `Complete` can do (R189). -/
theorem complete_cases (s : State) :
    (s.cfg.rxBufLen < s.rxLen ∧ complete s = .fault .bufferRange) ∨
    (s.rxLen ≤ s.cfg.rxBufLen ∧ ∃ e, parse s.cfg s.curCmd (s.rxBuf.readSeq 0 s.rxLen) = .error e ∧
      complete s = .next (onFault e s)) ∨
    (s.rxLen ≤ s.cfg.rxBufLen ∧ ∃ r, parse s.cfg s.curCmd (s.rxBuf.readSeq 0 s.rxLen) = .ok r ∧
      complete s = continueOp r (updateFor r s)) := by
  by_cases h : s.rxLen ≤ s.cfg.rxBufLen
  · cases hp : parse s.cfg s.curCmd (s.rxBuf.readSeq 0 s.rxLen) with
    | error e => exact .inr (.inl ⟨h, e, rfl, by simp [complete, frameIn, h, hp]⟩)
    | ok r => exact .inr (.inr ⟨h, r, rfl, by simp [complete, frameIn, h, hp]⟩)
  · exact .inl ⟨by omega, by simp [complete, frameIn, h]⟩

/-- Everything `NoResponse` can do (R185, R186). -/
theorem noResponse_cases (s : State) :
    (reached s.cfg.maxSendAttempts s.attempt = true ∧ noResponse s = .next (onFault (.noResponse s.attempt) s)) ∨
    (reached s.cfg.maxSendAttempts s.attempt = false ∧ Const.txBufLen < s.txLen ∧ noResponse s = .fault .bufferRange) ∨
    (reached s.cfg.maxSendAttempts s.attempt = false ∧ s.txLen ≤ Const.txBufLen ∧ noResponse s =
      .next { txWrite (s.txBuf.readSeq 0 s.txLen) s with
        attempt := s.attempt + 1, rxLen := 0, win := 0, phase := .ackWait }) := by
  cases hr : reached s.cfg.maxSendAttempts s.attempt
  · by_cases h : s.txLen ≤ Const.txBufLen
    · exact .inr (.inr ⟨rfl, h, by simp [noResponse, hr, frameIn, h]⟩)
    · exact .inr (.inl ⟨rfl, by omega, by simp [noResponse, hr, frameIn, h]⟩)
  · exact .inl ⟨rfl, by simp [noResponse, hr]⟩

/-- Everything an answer in the acknowledgment wait can do (R182 to R185). -/
theorem onAckAnswer_cases (a : Option Byte) (s : State) :
    (a = none ∧ onAckAnswer a s = noResponse s) ∨
    (a = some Const.ack ∧ onAckAnswer a s = ackSeen s) ∨
    (∃ b, a = some b ∧ b ≠ Const.ack ∧ s.win + 1 < Const.ackWindow ∧
      onAckAnswer a s = .next { s with win := s.win + 1 }) ∨
    (∃ b, a = some b ∧ b ≠ Const.ack ∧ Const.ackWindow ≤ s.win + 1 ∧
      onAckAnswer a s = noResponse { s with win := s.win + 1 }) := by
  cases a with
  | none => exact .inl ⟨rfl, rfl⟩
  | some b =>
    by_cases hb : b = Const.ack
    · subst hb
      exact .inr (.inl ⟨rfl, rfl⟩)
    · by_cases hw : s.win + 1 < Const.ackWindow
      · exact .inr (.inr (.inl ⟨b, rfl, hb, hw, by simp only [onAckAnswer, if_neg hb, nonAck, if_pos hw]⟩))
      · exact .inr (.inr (.inr ⟨b, rfl, hb, by omega, by simp only [onAckAnswer, if_neg hb, nonAck, if_neg hw]⟩))

/-- Everything an answer in the body can do (R187, R188). -/
theorem onBodyAnswer_cases (a : Option Byte) (s : State) :
    (a = none ∧ onBodyAnswer a s = complete s) ∨
    (∃ b, a = some b ∧ s.cfg.rxBufLen ≤ s.rxLen ∧ onBodyAnswer a s = .fault .bufferRange) ∨
    (∃ b, a = some b ∧ s.rxLen < s.cfg.rxBufLen ∧ (b = Const.etx ∨ s.rxLen + 1 = s.cfg.rxBufLen) ∧
      onBodyAnswer a s = complete (storeRx b s)) ∨
    (∃ b, a = some b ∧ s.rxLen + 1 < s.cfg.rxBufLen ∧ b ≠ Const.etx ∧ onBodyAnswer a s = .next (storeRx b s)) := by
  cases a with
  | none => exact .inl ⟨rfl, rfl⟩
  | some b =>
    by_cases hl : s.rxLen < s.cfg.rxBufLen
    · by_cases he : b = Const.etx ∨ s.rxLen + 1 = s.cfg.rxBufLen
      · exact .inr (.inr (.inl ⟨b, rfl, hl, he, by simp only [onBodyAnswer, if_pos hl, if_pos he]⟩))
      · have he' := not_or.1 he
        exact .inr (.inr (.inr ⟨b, rfl, by omega, he'.1, by simp only [onBodyAnswer, if_pos hl, if_neg he]⟩))
    · exact .inr (.inl ⟨b, rfl, by omega, by simp only [onBodyAnswer, if_neg hl]⟩)

/-- Everything the transport's move can do: none, or a list of answers, with its own future state. -/
theorem deliver_cases (s : State) :
    (s.rxMore = .stop ∧ deliver s = s) ∨
    (∃ a l, s.rxMore = .cycle a l ∧ deliver s = { s with rxs := a :: l }) ∨
    (∃ n, s.rxMore = .free n ∧ deliver s = { s with rxs := [Config.rxFree n], rxMore := .free (n + 1) }) := by
  cases h : s.rxMore with
  | stop => exact .inl ⟨rfl, by simp [deliver, h]⟩
  | cycle a l => exact .inr (.inl ⟨a, l, rfl, by simp [deliver, h]⟩)
  | free n => exact .inr (.inr ⟨n, rfl, by simp [deliver, h]⟩)

/-- Everything the step of a suspended engine can do (R7). -/
theorem onRead_cases (handle : Option Byte → State → Out) (s : State) :
    (s.rxs = [] ∧ onRead handle s = .next (deliver s)) ∨
    (∃ a q, s.rxs = a :: q ∧ onRead handle s = handle a (takeAnswer a q s)) := by
  cases h : s.rxs with
  | nil => exact .inl ⟨rfl, by simp [onRead, h]⟩
  | cons a q => exact .inr ⟨a, q, rfl, by simp [onRead, h]⟩

/-- Everything the fetch of an idle engine can give (R26, R210; log entry 8). -/
theorem fetch_cases (s : State) :
    (s.issue = none ∧ s.cmd = [] ∧ fetch s = .nothing) ∨
    (∃ r q, s.issue = none ∧ s.cmd = r :: q ∧ fetch s = .instr (decodeRecord r) (takeRecord r q s)) ∨
    (∃ bs i, s.issue = some bs ∧ decodePayload bs = .ok i ∧ fetch s = .instr i (takeIssue i s)) ∨
    (∃ bs e, s.issue = some bs ∧ decodePayload bs = .error e ∧ fetch s = .bad e) := by
  unfold fetch
  cases hi : s.issue with
  | none =>
    cases hc : s.cmd with
    | nil => exact .inl ⟨rfl, rfl, rfl⟩
    | cons r q => exact .inr (.inl ⟨r, q, rfl, rfl, rfl⟩)
  | some bs =>
    cases hd : decodePayload bs with
    | ok i => exact .inr (.inr (.inl ⟨bs, i, rfl, hd, by simp [decode, hd]⟩))
    | error e => exact .inr (.inr (.inr ⟨bs, e, rfl, hd, by simp [decode, hd]⟩))

end Sys2Proof.Machine
end

