-- ==== Sys2Proof/Laws/PerInstr.lean ====
section
/-! SUPPORT. A statement for all instructions, one lemma per constructor: the encoding of a well-formed instruction spells its
row of spec/opcode_table.json (R107). -/

namespace Sys2Proof.Laws.TableRow

open Sys2Proof Sys2Proof.Machine

/-- Match and mask of a host-operation row, over the 4-bit `op` field (R100, R107). -/
def opRow : Instr → Option (BitVec 4 × BitVec 4)
  | .opStartup => some (0x0, 0xF)
  | .opGetStatus => some (0x1, 0xF)
  | .opFaultReset => some (0x2, 0xF)
  | .opMoveAbsolute _ _ => some (0x3, 0xF)
  | .opMoveDelta _ _ => some (0x4, 0xF)
  | .opHome => some (0x5, 0xF)
  | .opGetTmo => some (0x6, 0xF)
  | .opSetTmo _ => some (0x7, 0xF)
  | .opUnsupported _ => some (0x8, 0x8)
  | .getStatus => none
  | .faultReset => none
  | .moveAbsolute _ _ => none
  | .moveDelta _ _ => none
  | .home => none
  | .getCommunicationTimeout => none
  | .setCommunicationTimeout _ => none

/-- Whether an encoding spells the row of an instruction. -/
def spellsRow (i : Instr) : Code → Prop
  | .payload (op :: data) => ∃ r ∈ wireRows, (firstCmd i).map Prod.fst = some r.cmd ∧ r.spells op data = true
  | .payload [] => False
  | .record r => ∃ p, opRow i = some p ∧ r.op &&& p.2 = p.1

/-- In every configuration the encoding spells the row, and a record it gives is one the host can place. -/
def Statement (i : Instr) : Prop :=
  ∀ c : Config, WellFormed c i = true →
    spellsRow i (encode i) ∧ ∀ r, encode i = .record r → r.fits c.argBits = true

/-- In range, the data of a move command is four bytes. -/
theorem encodeAxes_length {sent : Int} {p t : Option Int} (hs : fitsInt16 sent = true)
    (hp : wireAxisOk sent p = true) (ht : wireAxisOk sent t = true) : (encodeAxes sent p t).length = 4 := by
  have h : ∀ o, wireAxisOk sent o = true → -32768 ≤ axisValue sent o ∧ axisValue sent o ≤ 32767 := by
    intro o ho
    cases o <;> simp_all [wireAxisOk, fitsInt16, axisValue]
  simp [encodeAxes, moveData, encodeInt16_of_range (h p hp).1 (h p hp).2, encodeInt16_of_range (h t ht).1 (h t ht).2]

/-- The word of a move frame is in its row whatever its first data byte is (R107). -/
theorem moveWord_masked (d : Byte) : ((0x33#8 ++ d) &&& 0xFF00#16 = 0x3300#16) ∧ ((0x34#8 ++ d) &&& 0xFF00#16 = 0x3400#16) := by
  revert d
  decide

/-- The word of a set-timeout frame is in its row for every legal value (R107, R164). -/
theorem setWord_masked (d : Byte) (h : d.toNat ≤ 120) : (0x96#8 ++ d) &&& 0xFF80#16 = 0x9600#16 := by
  revert d
  decide

/-- A payload is no record. -/
theorem noRecord {i : Instr} {bs : List Byte} (bits : Nat) (h : encode i = .payload bs) :
    ∀ r, encode i = .record r → r.fits bits = true := fun r hr => by simp [h] at hr

/-- Zero fits every width. -/
theorem fitsArg_zero (bits : Nat) : fitsArg bits 0 = true := by
  have : 0 < 2 ^ (bits - 1) := Nat.two_pow_pos _
  simp only [fitsArg, Bool.and_eq_true, decide_eq_true_eq]
  omega

/-- The record of an operation without operands fits every width. -/
theorem plainRecord_fits (bits : Nat) (code : BitVec 4) : (plainRecord code).fits bits = true := by
  simp [plainRecord, HostRecord.fits, hostAxisOk, fitsArg_zero]

/-- A record equal to one that fits, fits. -/
theorem fits_of_encode {i : Instr} {q : HostRecord} {bits : Nat} (h : encode i = .record q) (hq : q.fits bits = true) :
    ∀ r, encode i = .record r → r.fits bits = true := by
  intro r hr
  rw [h] at hr
  injection hr with hr
  exact hr ▸ hq

theorem getStatus : Statement .getStatus := fun c _ => ⟨⟨_, .head _, rfl, by decide⟩, noRecord c.argBits rfl⟩
theorem faultReset : Statement .faultReset := fun c _ => ⟨⟨_, .tail _ (.head _), rfl, by decide⟩, noRecord c.argBits rfl⟩
theorem moveAbsolute (p t : Option Int) : Statement (.moveAbsolute p t) := by
  intro c h
  simp only [WellFormed, Bool.and_eq_true] at h
  refine ⟨⟨⟨.moveAbsolute, 0x3300, 0xFF00, 4⟩, by simp [wireRows], rfl, ?_⟩, noRecord c.argBits rfl⟩
  simp [WireRow.spells, encodeAxes_length (by decide) h.1 h.2, payloadWord, moveWord_masked]
theorem moveDelta (p t : Option Int) : Statement (.moveDelta p t) := by
  intro c h
  simp only [WellFormed, Bool.and_eq_true] at h
  refine ⟨⟨⟨.moveDelta, 0x3400, 0xFF00, 4⟩, by simp [wireRows], rfl, ?_⟩, noRecord c.argBits rfl⟩
  simp [WireRow.spells, encodeAxes_length (by decide) h.1 h.2, payloadWord, moveWord_masked]
theorem home : Statement .home :=
  fun c _ => ⟨⟨⟨.home, 0x3500, 0xFF00, 0⟩, by simp [wireRows], rfl, by decide⟩, noRecord c.argBits rfl⟩
theorem getCommunicationTimeout : Statement .getCommunicationTimeout :=
  fun c _ => ⟨⟨⟨.getCommunicationTimeout, 0x9680, 0xFF80, 1⟩, by simp [wireRows], rfl, by decide⟩, noRecord c.argBits rfl⟩
theorem setCommunicationTimeout (t : Int) : Statement (.setCommunicationTimeout t) := by
  intro c h
  simp only [WellFormed, tmoOk, Const.tmoMin, Const.tmoMax, Bool.and_eq_true, decide_eq_true_eq] at h
  have ht : (BitVec.ofInt 8 t).toNat ≤ 120 := by
    simp [BitVec.toNat_ofInt]
    omega
  refine ⟨⟨⟨.setCommunicationTimeout, 0x9600, 0xFF80, 1⟩, by simp [wireRows], rfl, ?_⟩, noRecord c.argBits rfl⟩
  simp [WireRow.spells, payloadWord, setWord_masked _ ht]
theorem opStartup : Statement .opStartup :=
  fun c _ => ⟨⟨_, rfl, by decide⟩, fits_of_encode rfl (plainRecord_fits c.argBits _)⟩
theorem opGetStatus : Statement .opGetStatus :=
  fun c _ => ⟨⟨_, rfl, by decide⟩, fits_of_encode rfl (plainRecord_fits c.argBits _)⟩
theorem opFaultReset : Statement .opFaultReset :=
  fun c _ => ⟨⟨_, rfl, by decide⟩, fits_of_encode rfl (plainRecord_fits c.argBits _)⟩
theorem opMoveAbsolute (p t : Option Int) : Statement (.opMoveAbsolute p t) := by
  intro c h
  refine ⟨⟨_, rfl, by simp [moveRecord, hostOpCode]⟩, fits_of_encode (q := moveRecord .moveAbsolute p t) rfl ?_⟩
  simpa [moveRecord, HostRecord.fits, fitsArg_zero, WellFormed] using h
theorem opMoveDelta (p t : Option Int) : Statement (.opMoveDelta p t) := by
  intro c h
  refine ⟨⟨_, rfl, by simp [moveRecord, hostOpCode]⟩, fits_of_encode (q := moveRecord .moveDelta p t) rfl ?_⟩
  simpa [moveRecord, HostRecord.fits, fitsArg_zero, WellFormed] using h
theorem opHome : Statement .opHome :=
  fun c _ => ⟨⟨_, rfl, by decide⟩, fits_of_encode rfl (plainRecord_fits c.argBits _)⟩
theorem opGetTmo : Statement .opGetTmo :=
  fun c _ => ⟨⟨_, rfl, by decide⟩, fits_of_encode rfl (plainRecord_fits c.argBits _)⟩
theorem opSetTmo (v : Int) : Statement (.opSetTmo v) := by
  intro c h
  refine ⟨⟨_, rfl, by simp [hostOpCode]⟩, fits_of_encode (q := ⟨_, none, none, v⟩) rfl ?_⟩
  simpa [HostRecord.fits, hostAxisOk, WellFormed] using h
theorem opUnsupported (code : BitVec 4) : Statement (.opUnsupported code) := by
  intro c h
  refine ⟨⟨_, rfl, ?_⟩, fits_of_encode rfl (plainRecord_fits c.argBits _)⟩
  have h8 : 8 ≤ code.toNat := by simpa [WellFormed] using h
  clear h
  revert code
  decide

/-- Every record the host can place is a well-formed instruction (R100). -/
theorem decodeRecord_wellFormed (c : Config) (r : HostRecord) (h : r.fits c.argBits = true) :
    WellFormed c (decodeRecord r) = true := by
  simp only [HostRecord.fits, Bool.and_eq_true] at h
  obtain ⟨⟨hp, ht⟩, hm⟩ := h
  cases ho : hostOpOf r.op with
  | none =>
    have h8 : hostOpOf r.op = none → 8 ≤ r.op.toNat := by
      generalize r.op = code
      revert code
      decide
    simp [decodeRecord, ho, WellFormed, h8 ho]
  | some o => cases o <;> simp [decodeRecord, ho, WellFormed, hp, ht, hm]

end Sys2Proof.Laws.TableRow
end

