-- ==== Sys2Proof/Laws/Runs.lean ====
section
/-! SUPPORT. The runs of R304 that never end, in which every read is answered: the model admits each of them. -/

namespace Sys2Proof.Machine

/-- A run whose first step answers a next state goes on from it. -/
theorem stepN_next {s t : State} (h : step s = .next t) (k : Nat) : stepN (k + 1) s = stepN k t := by rw [stepN, h]

/-- Runs compose. -/
theorem stepN_add (j k : Nat) (s t : State) (h : stepN j s = .next t) : stepN (j + k) s = stepN k t := by
  induction j generalizing s with
  | zero =>
    simp only [stepN] at h
    injection h with h
    rw [h, Nat.zero_add]
  | succ j ih =>
    rw [Nat.add_right_comm, stepN]
    rw [stepN] at h
    cases hs : step s with
    | next v => rw [hs] at h; exact ih v h
    | fault v => rw [hs] at h; simp at h
    | refused v => rw [hs] at h; simp at h

/-- What `p` steps repeat for ever: if from every state of the `k`-th set `p` steps reach the next set, then a run from a state
of the first never ends. -/
theorem runs_for_ever {I : Nat → State → Prop} {p : Nat} (h : ∀ k s, I k s → ∃ t, stepN p s = .next t ∧ I (k + 1) t)
    (s : State) (hs : I 0 s) (n : Nat) : ∃ t, stepN (p * n) s = .next t ∧ I n t := by
  induction n with
  | zero => exact ⟨s, rfl, hs⟩
  | succ n ih =>
    obtain ⟨t, h1, h2⟩ := ih
    obtain ⟨u, g1, g2⟩ := h n t h2
    exact ⟨u, by rw [Nat.mul_succ, stepN_add _ _ _ _ h1, g1], g2⟩

/-! ### A silent transport without a bound (R304 a) -/

/-- Waiting for the acknowledgment of a frame, on a transport that answers every read with a timeout, with no bound. -/
structure Silent (f : List Byte) (s : State) : Prop where
  running : s.resetIn = false
  phase : s.phase = .ackWait
  unbounded : s.cfg.maxSendAttempts = none
  frame : frameIn Const.txBufLen s.txBuf s.txLen = some f
  listed : s.rxs = []
  silent : s.rxMore = .cycle none []

/-- One timeout: the transport lists it, and the next step resends the frame (R185). -/
theorem silent_timeout (f : List Byte) (s : State) (h : Silent f s) :
    ∃ t, stepN 2 s = .next t ∧ Silent f t ∧ t.frames = s.frames ++ [f] ∧ t.reads = s.reads + 1 := by
  obtain ⟨h1, h2, h3, h4, h5, h6⟩ := h
  refine ⟨{ txWrite f (takeAnswer none [] { s with rxs := [none] }) with
    attempt := s.attempt + 1, rxLen := 0, win := 0, phase := .ackWait }, ?_, ⟨h1, rfl, h3, h4, rfl, h6⟩, ?_, ?_⟩
  · simp [stepN, step, h1, h2, onRead, h5, deliver, h6, onAckAnswer, noResponse, reached, h3, h4]
  · simp [State.frames]
  · simp [State.reads]

/-- R304 (a): the transaction resends for ever, and every read is answered. -/
theorem silent_transport_resends_for_ever (f : List Byte) (s : State) (h : Silent f s) (n : Nat) :
    ∃ t, stepN (2 * n) s = .next t ∧ Silent f t ∧ t.frames = s.frames ++ List.replicate n f ∧ t.reads = s.reads + n := by
  refine runs_for_ever (I := fun k t => Silent f t ∧ t.frames = s.frames ++ List.replicate k f ∧ t.reads = s.reads + k)
    ?_ s ⟨h, by simp, rfl⟩ n
  rintro k u ⟨h1, h2, h3⟩
  obtain ⟨t, g1, g2, g3, g4⟩ := silent_timeout f u h1
  exact ⟨t, g1, g2, by rw [g3, h2, List.append_assoc, ← List.replicate_succ'], by rw [g4, h3, Nat.add_assoc]⟩

/-! ### STARTUP without a bound (R304 b) -/

/-- STARTUP waiting for the acknowledgment, on a device whose every reply is ACK, ETX: it never answers validly. -/
structure Unready (s : State) : Prop where
  running : s.resetIn = false
  phase : s.phase = .ackWait
  op : s.op = hostOpCode .startup
  unbounded : s.cfg.startupMaxAttempts = none
  space : Const.rxBufFloor ≤ s.cfg.rxBufLen
  form : s.rxBuf.wf = true
  listed : s.rxs = []
  replies : s.rxMore = .cycle (some Const.ack) [some Const.etx]

/-- A frame without a payload is E_LENGTH for every command and configuration (R152). -/
theorem parse_empty (c : Config) (cmd : Cmd) : parse c cmd [Const.ack, Const.etx] = .error (.length 0) := by
  simp only [parse, frameBody, stripIdentity]
  cases c.hasIdentity <;> rfl

/-- One attempt of STARTUP against such a device: the transport lists its reply, and two reads later the next attempt has begun
(R226, R227). -/
theorem unready_attempt (s : State) (h : Unready s) :
    ∃ t, stepN 3 s = .next t ∧ Unready t ∧ t.startupN = s.startupN + 1 ∧ t.reads = s.reads + 2 := by
  obtain ⟨h1, h2, h3, h4, h5, h6, h7, h8⟩ := h
  have hl : 0 < s.cfg.rxBufLen := Nat.lt_of_lt_of_le (by decide) h5
  have hl1 : 1 < s.cfg.rxBufLen := Nat.lt_of_lt_of_le (by decide) h5
  have hb : ((s.rxBuf.write 0 Const.ack).write 1 Const.etx).readSeq 0 2 = [Const.ack, Const.etx] :=
    Memory.readSeq_writeSeq s.rxBuf 0 [Const.ack, Const.etx] h6
  have e1 : step s = .next { s with rxs := [some Const.ack, some Const.etx] } := by
    simp [step, h1, h2, onRead, h7, deliver, h8]
  have e2 : step { s with rxs := [some Const.ack, some Const.etx] } =
      .next { takeAnswer (some Const.ack) [some Const.etx] s with
        rxBuf := s.rxBuf.write 0 Const.ack, rxLen := 1, phase := .body } := by
    simp [step, h1, h2, onRead, onAckAnswer, ackSeen, hl, takeAnswer, State.act]
  obtain ⟨v, hv⟩ : ∃ v, v = storeRx Const.etx (takeAnswer (some Const.etx) []
      { takeAnswer (some Const.ack) [some Const.etx] s with
        rxBuf := s.rxBuf.write 0 Const.ack, rxLen := 1, phase := .body }) := ⟨_, rfl⟩
  have e3 : step { takeAnswer (some Const.ack) [some Const.etx] s with
      rxBuf := s.rxBuf.write 0 Const.ack, rxLen := 1, phase := .body } = .next (onFault (.length 0) v) := by
    have hf : frameIn v.cfg.rxBufLen v.rxBuf v.rxLen = some [Const.ack, Const.etx] := by
      rw [hv]
      exact (frameIn_of_le _ hl1).trans (congrArg some hb)
    have hc : complete v = .next (onFault (.length 0) v) := by simp only [complete, hf, parse_empty]
    rw [← hc, hv]
    simp [step, h1, onRead, onBodyAnswer, hl1]
  have e4 : onFault (.length 0) v = sendFrame .getStatus (frameOf v.cfg (0x31 :: statusRequestData false))
      (clearFault { recordFault (.length 0) v with startupN := v.startupN + 1 }) := by
    rcases onFault_cases (.length 0) v with ⟨h, _⟩ | ⟨_, h, _⟩ | ⟨_, _, h⟩
    · exact absurd ⟨by rw [hv]; exact h3, rfl⟩ h
    · rw [hv] at h
      simp [h4, reached] at h
    · exact h
  refine ⟨onFault (.length 0) v, (stepN_next e1 2).trans ((stepN_next e2 1).trans (stepN_next e3 0)), ?_, ?_, ?_⟩
  · rw [e4]
    constructor <;> simp [hv, h1, h3, h4, h8, Memory.wf_write, h6]
    exact h5
  · rw [e4]
    simp [hv]
  · rw [e4]
    simp [hv, State.reads]

/-- R304 (b): the handshake goes on for ever, and every read is answered. -/
theorem unready_device_is_greeted_for_ever (s : State) (h : Unready s) (n : Nat) :
    ∃ t, stepN (3 * n) s = .next t ∧ Unready t ∧ t.startupN = s.startupN + n ∧ t.reads = s.reads + 2 * n := by
  refine runs_for_ever (I := fun k t => Unready t ∧ t.startupN = s.startupN + k ∧ t.reads = s.reads + 2 * k)
    ?_ s ⟨h, rfl, rfl⟩ n
  rintro k u ⟨h1, h2, h3⟩
  obtain ⟨t, g1, g2, g3, g4⟩ := unready_attempt u h1
  exact ⟨t, g1, g2, by rw [g3, h2, Nat.add_assoc], by rw [g4, h3]; omega⟩

/-! ### A move whose EXEC stays set (R304 c) -/

/-- A state with more body bytes read (R187). -/
def bodyRead (bs : List Byte) (q : List (Option Byte)) (s : State) : State :=
  { s with
    rxBuf := s.rxBuf.writeSeq s.rxLen bs, rxLen := s.rxLen + bs.length, rxs := q,
    log := s.log ++ bs.map (fun b => .rxRead (some b)) }

/-- Body bytes that are no ETX and leave room are accumulated, one read each (R187). -/
theorem body_bytes (bs : List Byte) (q : List (Option Byte)) (s : State) (h1 : s.resetIn = false) (h2 : s.phase = .body)
    (h3 : s.rxs = bs.map some ++ q) (h4 : ∀ b ∈ bs, b ≠ Const.etx) (h5 : s.rxLen + bs.length < s.cfg.rxBufLen) :
    stepN bs.length s = .next (bodyRead bs q s) := by
  induction bs generalizing s with
  | nil =>
    have h3 : s.rxs = q := h3
    subst h3
    simp [stepN, bodyRead, Memory.writeSeq]
  | cons b bs ih =>
    simp only [List.length_cons] at h5
    have e : step s = .next (storeRx b (takeAnswer (some b) (bs.map some ++ q) s)) := by
      have hb : b ≠ Const.etx := h4 b (.head _)
      have hn : ¬(b = Const.etx ∨ s.rxLen + 1 = s.cfg.rxBufLen) := by
        rintro (h | h)
        · exact hb h
        · omega
      have hs : step s = onBodyAnswer (some b) (takeAnswer (some b) (bs.map some ++ q) s) := by
        simp only [step, h1, h2, onRead, h3]
        rfl
      rw [hs]
      exact (if_pos (show s.rxLen < s.cfg.rxBufLen by omega)).trans (if_neg hn)
    have h := ih (storeRx b (takeAnswer (some b) (bs.map some ++ q) s)) h1 h2 rfl (fun x hx => h4 x (.tail _ hx))
      (show s.rxLen + 1 + bs.length < s.cfg.rxBufLen by omega)
    rw [List.length_cons, stepN_next e, h]
    simp [bodyRead, storeRx, takeAnswer, State.act, Memory.writeSeq, Nat.add_assoc, Nat.add_comm 1]

/-- The bytes between the ACK and the ETX in the reply of a mount stopped at a soft limit with EXEC set, in the default layout:
`pan_status` 80, `general_status` 40. -/
def stoppedReply : List Byte := [0x31, 0, 0, 0, 0, 0x80, 0, 0x40, 0, 0, 0, 0xF1]

/-- A move polling such a mount, with SOFT_FAULT_ABORTS false. -/
structure AtLimit (s : State) : Prop where
  running : s.resetIn = false
  phase : s.phase = .ackWait
  op : s.op = hostOpCode .moveAbsolute
  stage : s.stage = .second
  command : s.curCmd = .getStatus
  plain : s.cfg.hasIdentity = false
  goesOn : s.cfg.softFaultAborts = false
  layout : s.cfg.layout = Layout.default
  space : Const.rxBufFloor ≤ s.cfg.rxBufLen
  form : s.rxBuf.wf = true
  listed : s.rxs = []
  replies : s.rxMore = .cycle (some Const.ack) (stoppedReply.map some ++ [some Const.etx])

/-- The reply parses to a status with a soft fault and EXEC. -/
theorem parse_stopped (c : Config) (h : c.hasIdentity = false) : parse c .getStatus (Const.ack :: (stoppedReply ++ [Const.etx])) =
    .ok (.status ⟨0, 0, 0x80, 0, 0x40, 0, 0, 0, none⟩) := by
  have hb : frameBody (Const.ack :: (stoppedReply ++ [Const.etx])) = some stoppedReply := by decide
  have hu : unescape stoppedReply = .ok stoppedReply := rfl
  simp only [parse, hb, hu, stripIdentity, h]
  rfl

/-- Such a poll goes on (R219 c). -/
theorem poll_goes_on (s : State) (h1 : s.op = hostOpCode .moveAbsolute) (h2 : s.stage = .second)
    (h3 : s.cfg.softFaultAborts = false) (h4 : s.cfg.layout = Layout.default) :
    continueOp (.status ⟨0, 0, 0x80, 0, 0x40, 0, 0, 0, none⟩) s =
      .next (sendFrame .getStatus (frameOf s.cfg (0x31 :: statusRequestData false)) (clearFault s)) := by
  have ho : hostOpOf s.op = some .moveAbsolute := by rw [h1]; rfl
  have hh : classifyHard s.cfg 0x80 0 = [] := by simp only [classifyHard, h4]; decide
  have he : execBit s.cfg 0x40 = true := by simp only [execBit, h4]; decide
  simp only [continueOp, ho, continueMoveOp, h2, continuePoll, pollAborts, hh, h3, he]
  exact issueXact_getStatus s

/-- One poll: the transport lists the reply, and fourteen reads later the engine polls again (R219 c). -/
theorem poll_at_limit (s : State) (h : AtLimit s) :
    ∃ t, stepN 15 s = .next t ∧ AtLimit t ∧ t.reads = s.reads + 14 := by
  obtain ⟨h1, h2, h3, h4, h5, h6, h7, h8, h9, h10, h11, h12⟩ := h
  have hl : 28 ≤ s.cfg.rxBufLen := h9
  let q := stoppedReply.map some ++ [some Const.etx]
  let u : State := { takeAnswer (some Const.ack) q s with rxBuf := s.rxBuf.write 0 Const.ack, rxLen := 1, phase := .body }
  have e1 : step s = .next { s with rxs := some Const.ack :: q } := by
    simp [step, h1, h2, onRead, h11, deliver, h12, q]
  have e2 : step { s with rxs := some Const.ack :: q } = .next u := by
    have hp : 0 < s.cfg.rxBufLen := by omega
    simp [step, h1, h2, onRead, onAckAnswer, ackSeen, hp, takeAnswer, State.act, u]
  have e3 : stepN 12 u = .next (bodyRead stoppedReply [some Const.etx] u) :=
    body_bytes stoppedReply [some Const.etx] u h1 rfl rfl (by decide) (show 1 + 12 < s.cfg.rxBufLen by omega)
  obtain ⟨v, hv⟩ : ∃ v, v = storeRx Const.etx (takeAnswer (some Const.etx) [] (bodyRead stoppedReply [some Const.etx] u)) :=
    ⟨_, rfl⟩
  have hb : frameIn v.cfg.rxBufLen v.rxBuf v.rxLen = some (Const.ack :: (stoppedReply ++ [Const.etx])) := by
    rw [hv]
    exact (frameIn_of_le _ (show 14 ≤ s.cfg.rxBufLen by omega)).trans (congrArg some
      (Memory.readSeq_writeSeq s.rxBuf 0 (Const.ack :: (stoppedReply ++ [Const.etx])) h10))
  have e4 : step (bodyRead stoppedReply [some Const.etx] u) = complete v := by
    have hs : step (bodyRead stoppedReply [some Const.etx] u) =
        onBodyAnswer (some Const.etx) (takeAnswer (some Const.etx) [] (bodyRead stoppedReply [some Const.etx] u)) := by
      have g1 : (bodyRead stoppedReply [some Const.etx] u).resetIn = false := h1
      have g2 : (bodyRead stoppedReply [some Const.etx] u).phase = .body := rfl
      have g3 : (bodyRead stoppedReply [some Const.etx] u).rxs = [some Const.etx] := rfl
      simp only [step, g1, g2, onRead, g3]
      rfl
    rw [hs, hv]
    exact (if_pos (show 13 < s.cfg.rxBufLen by omega)).trans (if_pos (.inl rfl))
  have hw : v.cfg = s.cfg ∧ v.op = s.op ∧ v.stage = s.stage ∧ v.curCmd = s.curCmd ∧ v.resetIn = s.resetIn ∧ v.rxs = [] ∧
      v.rxMore = s.rxMore ∧ v.rxBuf.wf = true ∧ v.reads = s.reads + 14 := by
    rw [hv]
    refine ⟨by simp [bodyRead, u], by simp [bodyRead, u], by simp [bodyRead, u], by simp [bodyRead, u], by simp [bodyRead, u],
      by simp, by simp [bodyRead, u], ?_, ?_⟩
    · simp only [storeRx_rxBuf, takeAnswer_rxBuf, takeAnswer_rxLen, bodyRead, u]
      exact Memory.wf_write _ _ (Memory.wf_writeSeq _ _ (Memory.wf_write _ _ h10))
    · simp [State.reads, bodyRead, stoppedReply, u]
  obtain ⟨w1, w2, w3, w4, w5, w6, w7, w8, w9⟩ := hw
  obtain ⟨x, hx⟩ : ∃ x, x = updateFor (.status ⟨0, 0, 0x80, 0, 0x40, 0, 0, 0, none⟩) v := ⟨_, rfl⟩
  have e5 : complete v = .next (sendFrame .getStatus (frameOf x.cfg (0x31 :: statusRequestData false)) (clearFault x)) := by
    have hp : parse v.cfg v.curCmd (Const.ack :: (stoppedReply ++ [Const.etx])) =
        .ok (.status ⟨0, 0, 0x80, 0, 0x40, 0, 0, 0, none⟩) := by
      rw [w4, h5]
      exact parse_stopped v.cfg (by rw [w1, h6])
    simp only [complete, hb, hp]
    rw [← hx]
    exact poll_goes_on x (by simp [hx, w2, h3]) (by simp [hx, w3, h4]) (by simp [hx, w1, h7]) (by simp [hx, w1, h8])
  refine ⟨_, (stepN_next e1 14).trans ((stepN_next e2 13).trans ((stepN_add 12 1 u _ e3).trans
    ((stepN_next (e4.trans e5) 0)))), ?_, ?_⟩
  · constructor <;> simp [hx, w1, w2, w3, w5, w6, w7, w8, h1, h3, h4, h6, h7, h8, h12]
    exact hl
  · have hr : x.reads = v.reads := by simp [State.reads, hx]
    rw [← w9, ← hr]
    simp [State.reads]

/-- R304 (c): the move polls for ever, and every read is answered. -/
theorem stopped_mount_is_polled_for_ever (s : State) (h : AtLimit s) (n : Nat) :
    ∃ t, stepN (15 * n) s = .next t ∧ AtLimit t ∧ t.reads = s.reads + 14 * n := by
  refine runs_for_ever (I := fun k t => AtLimit t ∧ t.reads = s.reads + 14 * k) ?_ s ⟨h, rfl⟩ n
  rintro k u ⟨h1, h2⟩
  obtain ⟨t, g1, g2, g3⟩ := poll_at_limit u h1
  exact ⟨t, g1, g2, by rw [g3, h2]; omega⟩

end Sys2Proof.Machine
end

