-- ==== Sys2Proof/Tests/Slice0.lean ====
section
/-! SUPPORT. The model's own tests: expected values come from 95_test_vectors.md (V.., P..) or are written out from the
encodings of 30_encoding.md; and one witness theorem for every statement that has hypotheses. -/

namespace Sys2Proof.Tests

open Machine

/-! ### Helpers -/

/-- The actions a step emitted, from a state with an empty log. -/
def logOf : Out → Option (List Action)
  | .next s => some s.log
  | .fault _ => none
  | .refused _ => none

/-- One view of the next state. -/
def viewOf {α : Type} (v : State → α) : Out → Option α
  | .next s => some (v s)
  | .fault _ => none
  | .refused _ => none

/-- A typed result, as an option. -/
def okOf : Except Raise Reply → Option Reply
  | .ok r => some r
  | .error _ => none

/-- A raised fault, as an option. -/
def errOf {α : Type} : Except Raise α → Option Raise
  | .ok _ => none
  | .error e => some e

/-- The instruction a decoder answers. -/
def instrOf : Except DecodeError Instr → Option Instr
  | .ok i => some i
  | .error _ => none

/-- The record of an operation as the host writes it. -/
def record (op : BitVec 4) (pan tilt : Option Int) (tmo : Int) : HostRecord := ⟨op, pan, tilt, tmo⟩

/-- The frame of V20. -/
def frame20 : List Byte := [0x02, 0x31, 0, 0, 0, 0, 0, 0x31, 0x03]

/-- The reply frame of V50. -/
def frame50 : List Byte := [0x06, 0x31, 0, 0, 0, 0, 0, 0, 0, 0, 0, 0, 0x31, 0x03]

/-- The status response of V50. -/
def status50 : StatusResponse := ⟨0, 0, 0, 0, 0, 0, 0, 0, none⟩

/-- The acknowledgment wait of a `get_status` in an operation, with the answers to come. -/
def waiting (code : BitVec 4) (rxs : List (Option Byte)) : State :=
  { State.reset with
    op := code, phase := .ackWait, txBuf := Memory.writeSeq [] 0 frame20, txLen := 9, rxs := rxs }

/-- The body of a `get_status` reply, with the bytes read so far and the answers to come. -/
def reading (code : BitVec 4) (got : List Byte) (rxs : List (Option Byte)) : State :=
  { waiting code rxs with phase := .body, rxBuf := Memory.writeSeq [] 0 got, rxLen := got.length }

/-- A move that polls. -/
def polling : State := { reading 0x3 frame50 [] with stage := .second }

/-! ### WellFormed refuses an ill-formed term for each check -/

theorem smoke_wire_axis_range : WellFormed Config.default (.moveAbsolute (some 32768) none) = false := by decide
theorem smoke_wire_axis_range_low : WellFormed Config.default (.moveDelta none (some (-32769))) = false := by decide
theorem smoke_wire_axis_sentinel : WellFormed Config.default (.moveAbsolute (some 9999) none) = false := by decide
theorem smoke_wire_delta_sentinel : WellFormed Config.default (.moveDelta none (some 0)) = false := by decide
theorem smoke_wire_timeout_high : WellFormed Config.default (.setCommunicationTimeout 121) = false := by decide
theorem smoke_wire_timeout_low : WellFormed Config.default (.setCommunicationTimeout (-1)) = false := by decide
theorem smoke_host_axis : WellFormed Config.default (.opMoveAbsolute (some 2147483648) none) = false := by decide
theorem smoke_host_delta : WellFormed Config.default (.opMoveDelta none (some (-2147483649))) = false := by decide
theorem smoke_host_timeout : WellFormed Config.default (.opSetTmo 2147483648) = false := by decide
theorem smoke_assigned_code : WellFormed Config.default (.opUnsupported 0x7) = false := by decide
/-- ARG_BITS at its floor, 17 bits, and at 40 bits: the last value inside and the first outside (R8, R100). -/
theorem smoke_argBits : WellFormed { Config.default with argBits := 17 } (.opSetTmo 65535) = true ∧
    WellFormed { Config.default with argBits := 17 } (.opSetTmo 65536) = false ∧
    WellFormed { Config.default with argBits := 40 } (.opMoveAbsolute (some (-549755813888)) none) = true ∧
    WellFormed { Config.default with argBits := 40 } (.opMoveAbsolute (some (-549755813889)) none) = false := by decide
/-- A record whose timeout has no 32 bits, and a configuration below the floor of ARG_BITS. -/
theorem smoke_record : (record 0x7 none none 2147483648).fits 32 = false ∧ (record 0x3 (some 2147483648) none 0).fits 33 = true ∧
    Config.valid { Config.default with argBits := 16 } = false ∧ Config.valid { Config.default with argBits := 17 } = true := by
  decide

/-! ### Decoding: every constructor from a word or byte sequence written out from R88, R93, R97, R100 -/

theorem decode_getStatus : decodeTableWord 16 0b0011000100000000 = some .getStatus := by decide
theorem decode_faultReset : decodeTableWord 16 0b0011000100000001 = some .faultReset := by decide
/-- V33's data: 32767 is FF 7F, -32768 is 00 80. -/
theorem decode_moveAbsolute : instrOf (decodePayload [0b00110011, 0xFF, 0x7F, 0x00, 0x80]) =
    some (.moveAbsolute (some 32767) (some (-32768))) := by decide
theorem decode_moveAbsolute_word : decodeTableWord 16 0b0011001100001111 = some (.moveAbsolute (some 15) (some 0)) := by
  decide
/-- V36's data. -/
theorem decode_moveDelta : instrOf (decodePayload [0b00110100, 0x64, 0x00, 0x00, 0x00]) =
    some (.moveDelta (some 100) none) := by decide
theorem decode_home : decodeTableWord 16 0b0011010100000000 = some .home := by decide
theorem decode_getTimeout : decodeTableWord 16 0b1001011010000000 = some .getCommunicationTimeout := by decide
theorem decode_setTimeout : decodeTableWord 16 0b1001011001111000 = some (.setCommunicationTimeout 120) := by decide
theorem decode_opStartup : decodeTableWord 8 0b0000 = some .opStartup := by decide
theorem decode_opGetStatus : decodeTableWord 8 0b0001 = some .opGetStatus := by decide
theorem decode_opFaultReset : decodeTableWord 8 0b0010 = some .opFaultReset := by decide
theorem decode_opMoveAbsolute : instrOf (decode (.record (record 0b0011 (some 900) (some (-450)) 0))) =
    some (.opMoveAbsolute (some 900) (some (-450))) := by decide
theorem decode_opMoveDelta : instrOf (decode (.record (record 0b0100 (some 2147483647) none 0))) =
    some (.opMoveDelta (some 2147483647) none) := by decide
theorem decode_opHome : decodeTableWord 8 0b0101 = some .opHome := by decide
theorem decode_opGetTmo : decodeTableWord 8 0b0110 = some .opGetTmo := by decide
theorem decode_opSetTmo : instrOf (decode (.record (record 0b0111 none none (-2147483648)))) =
    some (.opSetTmo (-2147483648)) := by decide
theorem decode_opUnsupported : decodeTableWord 8 0b1000 = some (.opUnsupported 0x8) := by decide
/-- R107: a byte sequence that matches no row is no command. -/
theorem decode_refuses : instrOf (decodePayload [0x31, 0, 0, 0, 0]) = none ∧ instrOf (decodePayload [0x32]) = none ∧
    instrOf (decodePayload []) = none := by decide
/-- V41 seen by a monitor: the identity and the escape are undone, R104. -/
theorem decode_frame : instrOf (decodeFrame { Config.default with hasIdentity := true, identity := 0x02 }
    [0x02, 0x1B, 0x82, 0x33, 0x84, 0x1B, 0x83, 0x3E, 0xFE, 0x74, 0x03]) = some (.moveAbsolute (some 900) (some (-450))) := by
  decide

/-! ### One step of each instruction -/

/-- V20. -/
theorem test_getStatus : logOf (exec .getStatus State.reset) = some [.txWrite frame20] := by decide
/-- V21. -/
theorem test_faultReset : logOf (exec .faultReset State.reset) =
    some [.txWrite [0x02, 0x31, 0x01, 0, 0, 0, 0, 0x30, 0x03]] := by decide
/-- V34: every data byte escaped. -/
theorem test_moveAbsolute : logOf (exec (.moveAbsolute (some 515) (some 1563)) State.reset) =
    some [.txWrite [0x02, 0x33, 0x1B, 0x83, 0x1B, 0x82, 0x1B, 0x9B, 0x1B, 0x86, 0x2F, 0x03]] := by decide
/-- V35: both operands out of range, pan is reported. -/
theorem test_moveAbsolute_range : logOf (exec (.moveAbsolute (some 40000) (some 40000)) State.reset) =
    some [.result (.fault (.range 40000))] := by decide
/-- V38: the checksum is escaped. -/
theorem test_moveDelta : logOf (exec (.moveDelta (some 54) (some 0)) State.reset) =
    some [.txWrite [0x02, 0x34, 0x36, 0, 0, 0, 0x1B, 0x82, 0x03]] := by decide
/-- V39. -/
theorem test_moveDelta_absent : logOf (exec (.moveDelta none none) State.reset) =
    some [.txWrite [0x02, 0x34, 0, 0, 0, 0, 0x34, 0x03]] := by decide
/-- V22. -/
theorem test_home : logOf (exec .home State.reset) = some [.txWrite [0x02, 0x35, 0x35, 0x03]] := by decide
/-- V23. -/
theorem test_getTimeout : logOf (exec .getCommunicationTimeout State.reset) =
    some [.txWrite [0x02, 0x96, 0x80, 0x16, 0x03]] := by decide
/-- V24 at the upper bound. -/
theorem test_setTimeout : logOf (exec (.setCommunicationTimeout 120) State.reset) =
    some [.txWrite [0x02, 0x96, 0x78, 0xEE, 0x03]] := by decide
/-- V26. -/
theorem test_setTimeout_rejects : logOf (exec (.setCommunicationTimeout (-1)) State.reset) =
    some [.note (.tmoRange (-1)), .result .rejected] := by decide
/-- P6: the handshake begins with attempt 1 in ACKWAIT. -/
theorem test_opStartup : viewOf (fun s => (s.op, s.startupN, s.phase, s.frames)) (exec .opStartup State.reset) =
    some (0x0, 1, .ackWait, [frame20]) := by decide
/-- P2. -/
theorem test_opGetStatus : viewOf (fun s => (s.op, s.curCmd, s.attempt, s.frames)) (exec .opGetStatus State.reset) =
    some (0x1, .getStatus, 1, [frame20]) := by decide
/-- P5. -/
theorem test_opFaultReset : viewOf (fun s => (s.op, s.curCmd, s.frames)) (exec .opFaultReset State.reset) =
    some (0x2, .faultReset, [[0x02, 0x31, 0x01, 0, 0, 0, 0, 0x30, 0x03]]) := by decide
/-- P1. -/
theorem test_opMoveAbsolute : viewOf (fun s => (s.op, s.curCmd, s.frames))
    (exec (.opMoveAbsolute (some 900) (some (-450))) State.reset) =
    some (0x3, .moveAbsolute, [[0x02, 0x33, 0x84, 0x1B, 0x83, 0x3E, 0xFE, 0x74, 0x03]]) := by decide
/-- V121. -/
theorem test_opMoveAbsolute_range : viewOf (fun s => (s.log, s.phase, s.faultCode))
    (exec (.opMoveAbsolute (some 32768) (some 0)) State.reset) =
    some ([.result (.fault (.range 32768))], .idle, 5) := by decide
/-- P4. -/
theorem test_opMoveDelta : viewOf (fun s => (s.op, s.curCmd, s.frames)) (exec (.opMoveDelta (some 100) none) State.reset) =
    some (0x4, .moveDelta, [[0x02, 0x34, 0x64, 0, 0, 0, 0x50, 0x03]]) := by decide
/-- V117. -/
theorem test_opHome : viewOf (fun s => (s.op, s.curCmd, s.frames)) (exec .opHome State.reset) =
    some (0x5, .home, [[0x02, 0x35, 0x35, 0x03]]) := by decide
/-- V110. -/
theorem test_opGetTmo : viewOf (fun s => (s.op, s.curCmd, s.frames)) (exec .opGetTmo State.reset) =
    some (0x6, .getCommunicationTimeout, [[0x02, 0x96, 0x80, 0x16, 0x03]]) := by decide
/-- P3. -/
theorem test_opSetTmo : viewOf (fun s => (s.op, s.reqTmo, s.frames)) (exec (.opSetTmo 27) State.reset) =
    some (0x7, 27, [[0x02, 0x96, 0x1B, 0x9B, 0x8D, 0x03]]) := by decide
/-- V113. -/
theorem test_opSetTmo_rejects : logOf (exec (.opSetTmo 121) State.reset) =
    some [.note (.tmoRange 121), .result .rejected] := by decide
/-- V123. -/
theorem test_opUnsupported : viewOf (fun s => (s.log, s.faultCode)) (exec (.opUnsupported 0xF) State.reset) =
    some ([.result (.fault (.unsupported 0xF))], 4) := by decide

/-! ### Codec and packet layer -/

/-- V3, V4, V5. -/
theorem test_encodeInt16 : encodeInt16 (-450) = .ok [0x3E, 0xFE] ∧ encodeInt16 32767 = .ok [0xFF, 0x7F] ∧
    errOf (encodeInt16 32768) = some (.range 32768) := ⟨rfl, rfl, rfl⟩
/-- S7, V10. -/
theorem test_checksum : checksum [0x33, 0x01, 0x00, 0x02, 0x00] = 0x30 ∧ checksum [0x96, 0x80] = 0x16 := by decide
/-- V12, V13. -/
theorem test_escape : escape [0x02, 0x03, 0x06, 0x15, 0x1B] =
    [0x1B, 0x82, 0x1B, 0x83, 0x1B, 0x86, 0x1B, 0x95, 0x1B, 0x9B] ∧
    escape [0x82, 0x83, 0x80, 0x00, 0xFF] = [0x82, 0x83, 0x80, 0x00, 0xFF] := by decide
/-- V16, V18. -/
theorem test_unescape : unescape [0x1B, 0x1B, 0x9B] = .ok [0x1B, 0x9B] ∧ errOf (unescape [0x31, 0x1B]) = some .escape :=
  ⟨rfl, rfl⟩
/-- V53: every byte of a reply escaped, with camera data. -/
theorem test_parse_status : okOf (parse Config.default .getStatus
    [0x06, 0x31, 0x1B, 0x82, 0x00, 0x1B, 0x83, 0x00, 0x1B, 0x86, 0x1B, 0x95, 0x1B, 0x9B, 0x1B, 0x82, 0x1B, 0x83, 0x01,
      0x1B, 0x86, 0x3E, 0x03]) = some (.status ⟨2, 3, 0x06, 0x15, 0x1B, 2, 3, 1, some [0x06]⟩) := by decide
/-- V66, V67: the checksum is tested before the opcode. -/
theorem test_parse_order :
    errOf (parse Config.default .getStatus [0x06, 0x33, 0, 0, 0, 0, 0, 0, 0, 0, 0, 0, 0x31, 0x03]) = some (.checksum 0x02) ∧
    errOf (parse Config.default .getStatus [0x06, 0x33, 0, 0, 0, 0, 0, 0, 0, 0, 0, 0, 0x33, 0x03]) =
      some (.opcode 0x31 0x33) := by decide
/-- V59: bit 7 of a timeout reply is masked. -/
theorem test_parse_timeout : okOf (parse Config.default .getCommunicationTimeout [0x06, 0x96, 0x9E, 0x08, 0x03]) =
    some (.timeout 30) := by decide
/-- V102, V107. -/
theorem test_classify : classifyHard Config.default 0x0E 0x04 =
      [(.pan, .timeout), (.pan, .directionError), (.pan, .overload), (.tilt, .directionError)] ∧
    classifySoft Config.default 0x10 0x80 = [(.pan, .hardLimitA), (.tilt, .softLimitB)] ∧
    classifyHard Config.default 0x01 0x01 = [] := by decide
/-- R217 for a layout whose limit flags do not ascend as R96 lists them: by bit position, not by name. -/
theorem test_classify_order :
    let c := { Config.default with layout := { Layout.default with axSoftLimitA := 4, axHardLimitA := 6 } }
    c.valid = true ∧ classifySoft c 0x50 0xF0 = [(.pan, .softLimitA), (.pan, .hardLimitA),
      (.tilt, .softLimitA), (.tilt, .hardLimitB), (.tilt, .hardLimitA), (.tilt, .softLimitB)] := by decide

/-! ### One step of a running transaction -/

/-- V84's first timeout: the frame is written again. -/
theorem test_resend : viewOf (fun s => (s.frames, s.attempt)) (step (waiting 0x1 [none])) = some ([frame20], 2) := by decide
/-- V80's last read: the reply is parsed, the registers are updated, the operation ends. -/
theorem test_complete : viewOf (fun s => (s.curPan, s.destPan, s.results, s.phase))
    (step (reading 0x1 frame50.dropLast [some 0x03])) =
    some (⟨true, 0⟩, ⟨false, 0⟩, [.okStatus status50], .idle) := by decide
/-- V87's last answer. -/
theorem test_body_timeout : viewOf (fun s => (s.results, s.faultCode, s.rxLen)) (step (reading 0x1 [0x06, 0x31, 0x00] [none])) =
    some ([.fault (.framing 3)], 1, 3) := by decide
/-- P4's poll: the hard fault is tested before EXEC. -/
theorem test_poll_fault : logOf (continueOp (.status { status50 with pan := 300, panStatus := 0x08 }) polling) =
    some [.note (.hardFault .pan .timeout),
      .result (.moveDone false { status50 with pan := 300, panStatus := 0x08 } [(.pan, .timeout)] [])] := by decide
/-- P3's read-back. -/
theorem test_read_back : logOf (continueOp (.timeout 25) { waiting 0x7 [] with stage := .second, reqTmo := 27 }) =
    some [.note (.tmoMismatch 27 25), .result (.okTmo 25)] := by decide

/-! ### The endless runs of R304: each begins in a state there is -/

theorem silent_exists : Silent frame20 { waiting 0x1 [] with rxMore := .cycle none [] } := ⟨rfl, rfl, rfl, rfl, rfl, rfl⟩
theorem unready_exists : Unready { waiting 0x0 [] with rxMore := .cycle (some 0x06) [some 0x03] } :=
  ⟨rfl, rfl, rfl, rfl, by decide, rfl, rfl, rfl⟩
theorem atLimit_exists : AtLimit { waiting 0x3 [] with
    stage := .second, cfg := { Config.default with softFaultAborts := false },
    rxMore := .cycle (some 0x06) (stoppedReply.map some ++ [some 0x03]) } :=
  ⟨rfl, rfl, rfl, rfl, rfl, rfl, rfl, rfl, by decide, rfl, rfl, rfl⟩

/-! ### Witnesses: for every statement with hypotheses, a state and operands that meet them all, clause by clause -/

/-- Both ends of the range, and the first value outside at either end. -/
theorem witness_EncodeInt16WritesTwosComplement :
    ((-32768 : Int) ≤ -32768 ∧ (-32768 : Int) ≤ 32767) ∧ ((-32768 : Int) ≤ 32767 ∧ (32767 : Int) ≤ 32767) ∧
    ((-32769 : Int) < -32768) ∧ ((32767 : Int) < 32768) := by decide
theorem witness_Int16CodecIsInverse :
    ((-32768 : Int) ≤ -32768 ∧ (-32768 : Int) ≤ 32767) ∧ ((32767 : Int) < 32768) ∧ ([0x84, 0x03] : List Byte).length = 2 := by
  decide
theorem witness_ChecksumLaws : ([0x01, 0x02] : List Byte).Perm [0x02, 0x01] ∧ (0x80 : Byte) ≠ 0 := by decide
theorem witness_EscapeLaws : (0x1B : Byte) ∈ escape [0x02] ∧ (0x1B : Byte) ∈ ([0x02, 0x03, 0x06, 0x15, 0x1B] : List Byte) ∧
    escape [0x02] = [] ++ 0x1B :: [0x82] := by decide
theorem witness_UnescapeTakesTheByteAfterEsc : unescape [0x31] = .ok [0x31] ∧ (0x00 : Byte) ≠ 0x1B ∧
    unescape [0x31, 0x1B] = .error .escape := ⟨rfl, by decide, rfl⟩
theorem witness_AssembledFrameShape : assemble Config.default .getStatus Args.empty = .ok (some frame20) := rfl
/-- One frame for each check: no ACK, a trailing ESC, no payload, one byte, a wrong fold, a wrong opcode, a right one; and a
payload behind an identity byte that is not the configured one. -/
theorem witness_ParseReportsTheFirstFailingCheck :
    (¬∃ e : List Byte, [0x02, 0x03] = (0x06 : Byte) :: (e ++ [0x03])) ∧ unescape [0x1B] = .error .escape ∧
    unescape [] = .ok [] ∧
    (unescape [0x31] = .ok [0x31] ∧ [0x31] = identityBytes Config.default ++ [0x31] ∧ ([0x31] : List Byte).length < 2) ∧
    (unescape [0x31, 0x30] = .ok [0x31, 0x30] ∧ 2 ≤ ([0x31, 0x30] : List Byte).length ∧ checksum [0x31, 0x30] ≠ 0) ∧
    (unescape [0x33, 0x33] = .ok [0x33, 0x33] ∧ ([0x33, 0x33] : List Byte) = 0x33 :: ([] ++ [0x33]) ∧
      checksum [0x33, 0x33] = 0 ∧ (0x33 : Byte) ≠ (registry Config.default .getStatus).opcode) ∧
    (unescape [0x31, 0x31] = .ok [0x31, 0x31] ∧ ([0x31, 0x31] : List Byte) = 0x31 :: ([] ++ [0x31]) ∧
      checksum [0x31, 0x31] = 0 ∧ (0x31 : Byte) = (registry Config.default .getStatus).opcode) ∧
    (({ Config.default with hasIdentity := true } : Config).hasIdentity = true ∧
      unescape [0x1B, 0x82, 0x31, 0x31] = .ok (0x02 :: [0x31, 0x31]) ∧ 2 ≤ ([0x31, 0x31] : List Byte).length) :=
  ⟨fun ⟨e, h⟩ => by simp at h, rfl, rfl, ⟨rfl, rfl, by decide⟩, ⟨rfl, by decide, by decide⟩, ⟨rfl, rfl, rfl, by decide⟩,
    ⟨rfl, rfl, rfl, rfl⟩, ⟨rfl, rfl, by decide⟩⟩
/-- An escaped identity before the shortest payload. -/
theorem witness_ReplyIdentityIsNotCompared : ({ Config.default with hasIdentity := true } : Config).hasIdentity = true ∧
    unescape [0x1B, 0x82, 0x31, 0x31] = .ok (0x02 :: [0x31, 0x31]) ∧ unescape [0x31, 0x31] = .ok [0x31, 0x31] :=
  ⟨rfl, rfl, rfl⟩
/-- Ten data bytes, eleven, and nine. -/
theorem witness_StatusReplyFields : 10 ≤ (List.replicate 10 (0 : Byte)).length ∧ 10 < (List.replicate 11 (0 : Byte)).length ∧
    (List.replicate 9 (0 : Byte)).length < 10 := by decide
theorem witness_TimeoutReplyValue : ([] : List Byte).length ≠ 1 ∧ ([0x1E, 0x00] : List Byte).length ≠ 1 := by decide
theorem witness_HomeReplyByConfiguration : Config.default.homeReply = .none ∧ ([0x00] : List Byte) ≠ [] ∧
    ({ Config.default with homeReply := .status } : Config).homeReply = .status := by decide
theorem witness_DecodeInvertsEncode : WellFormed Config.default (.moveAbsolute (some 32767) none) = true ∧
    WellFormed Config.default (.opSetTmo (-2147483648)) = true ∧ WellFormed Config.default (.opUnsupported 0x8) = true ∧
    encode (.opSetTmo (-2147483648)) = .record (record 0x7 none none (-2147483648)) ∧
    (record 0x3 (some 65535) none (-65536)).fits 17 = true := by decide
theorem witness_MonitorReadsAssembledFrames : WellFormed Config.default .getStatus = true ∧
    encode .getStatus = .payload [0x31, 0, 0, 0, 0, 0] ∧ firstCmd .getStatus = some (.getStatus, Args.empty) ∧
    assemble Config.default .getStatus Args.empty = .ok (some frame20) := ⟨rfl, rfl, rfl, rfl⟩
/-- Both clauses, with an absent axis and with the largest int16. -/
theorem witness_MoveCommandsStart : encodeInt16 ((none : Option Int).getD 9999) = .ok [0x0F, 0x27] ∧
    encodeInt16 ((some 32767 : Option Int).getD 9999) = .ok [0xFF, 0x7F] ∧
    encodeInt16 ((none : Option Int).getD 0) = .ok [0x00, 0x00] ∧
    encodeInt16 ((some (-32768) : Option Int).getD 0) = .ok [0x00, 0x80] := ⟨rfl, rfl, rfl, rfl⟩
/-- Pan out of range, and tilt out of range beside a pan at the end of its range. -/
theorem witness_MoveCommandsFaultOutOfRange : (32767 : Int) < 32768 ∧ (some 32768 : Option Int) = some 32768 ∧
    (-32769 : Int) < -32768 ∧ (some (-32769) : Option Int) = some (-32769) ∧
    (∀ w : Int, (some 32767 : Option Int) = some w → -32768 ≤ w ∧ w ≤ 32767) :=
  ⟨by decide, rfl, by decide, rfl, fun w h => by injection h with h; omega⟩
/-- Both ends of the range, and the first value outside at either end. -/
theorem witness_SetTimeoutStartsOrIsRejected : ((0 : Int) ≤ 0 ∧ (0 : Int) ≤ 120) ∧ ((0 : Int) ≤ 120 ∧ (120 : Int) ≤ 120) ∧
    (-1 : Int) < 0 ∧ (120 : Int) < 121 := by decide
theorem witness_MoveOperationsStart : encodeInt16 ((some 900 : Option Int).getD 9999) = .ok [0x84, 0x03] ∧
    encodeInt16 ((none : Option Int).getD 9999) = .ok [0x0F, 0x27] ∧
    encodeInt16 ((some 100 : Option Int).getD 0) = .ok [0x64, 0x00] ∧
    encodeInt16 ((none : Option Int).getD 0) = .ok [0x00, 0x00] := ⟨rfl, rfl, rfl, rfl⟩
theorem witness_MoveOperationsFaultOutOfRange : (32767 : Int) < 32768 ∧ (some 32768 : Option Int) = some 32768 ∧
    (-32769 : Int) < -32768 ∧ (some (-32769) : Option Int) = some (-32769) ∧
    (∀ w : Int, (none : Option Int) = some w → -32768 ≤ w ∧ w ≤ 32767) :=
  ⟨by decide, rfl, by decide, rfl, fun w h => by simp at h⟩
theorem witness_SetTmoStartsOrIsRejected : ((0 : Int) ≤ 0 ∧ (0 : Int) ≤ 120) ∧ ((0 : Int) ≤ 120 ∧ (120 : Int) ≤ 120) ∧
    (-1 : Int) < 0 ∧ (120 : Int) < 121 := by decide
/-- The first and the last unassigned code. -/
theorem witness_UnassignedCodesFault : 8 ≤ (0x8 : BitVec 4).toNat ∧ 8 ≤ (0xF : BitVec 4).toNat := by decide
/-- An instruction that sends, and one that does not; the addresses around the end of the frame. -/
theorem witness_ExecChangesOnlyItsOwnState : (∃ t, exec .opGetStatus State.reset = .next t) ∧
    frameSent State.reset.cfg .opGetStatus = some frame20 ∧ frame20.length ≤ 9 ∧
    (∃ t, exec (.opSetTmo 121) State.reset = .next t) ∧ frameSent State.reset.cfg (.opSetTmo 121) = none ∧
    Instr.opGetStatus ≠ .opStartup ∧ (∀ v, Instr.opGetStatus ≠ .opSetTmo v) :=
  ⟨⟨_, rfl⟩, rfl, by decide, ⟨_, rfl⟩, rfl, by decide, fun v => by simp⟩
theorem witness_ExecStoresAndWritesItsFrame : State.reset.txBuf.wf = true ∧
    frameSent State.reset.cfg .opGetStatus = some frame20 := ⟨rfl, rfl⟩
theorem witness_StepRunsTheAcceptedOperation :
    let s := { State.reset with cmd := [record 0x7 none none 30] }
    s.phase = .idle ∧ s.resetIn = false ∧ s.issue = none ∧ s.cmd = record 0x7 none none 30 :: [] ∧
    decode (.record (record 0x7 none none 30)) = .ok (.opSetTmo 30) ∧ WellFormed s.cfg (.opSetTmo 30) = true :=
  ⟨rfl, rfl, rfl, rfl, rfl, rfl⟩
theorem witness_StepRunsTheIssuedCommand :
    let s := { State.reset with issue := some [0x96, 0x1E] }
    s.phase = .idle ∧ s.resetIn = false ∧ s.issue = some [0x96, 0x1E] ∧
    decode (.payload [0x96, 0x1E]) = .ok (.setCommunicationTimeout 30) ∧
    WellFormed s.cfg (.setCommunicationTimeout 30) = true :=
  ⟨rfl, rfl, rfl, rfl, rfl⟩
theorem witness_NothingHappensWithoutAnEvent : State.reset.resetIn = false ∧
    (State.reset.phase = .idle ∧ State.reset.issue = none ∧ State.reset.cmd = []) ∧
    ((waiting 0x1 []).resetIn = false ∧ (waiting 0x1 []).phase ≠ .idle ∧ (waiting 0x1 []).rxs = [] ∧
      (waiting 0x1 []).rxMore = .free 0) ∧
    ({ waiting 0x1 [] with rxMore := .stop } : State).rxMore = .stop ∧
    ({ waiting 0x1 [] with rxMore := .cycle none [] } : State).rxMore = .cycle none [] := by decide
/-- From IDLE: nothing to do, a frame, an operation that writes none. From ACKWAIT: ACK, another byte, and the last no-response,
outside STARTUP and under it. From BODY: a byte, the reply that ends an operation and the one that goes on. No answer. -/
theorem witness_PhaseChangesOnlyAsTheRulesSay :
    (State.reset.resetIn = false ∧ State.reset.phase = .idle ∧ ∃ t, step State.reset = .next t) ∧
    (let s := { State.reset with cmd := [record 0x1 none none 0] };
      s.phase = .idle ∧ ∃ t, step s = .next t ∧ t.phase = .ackWait) ∧
    (let s := { State.reset with cmd := [record 0xF none none 0] };
      s.phase = .idle ∧ ∃ t, step s = .next t ∧ t.phase = .idle) ∧
    ((waiting 0x1 [some 0x06]).phase = .ackWait ∧ ∃ t, step (waiting 0x1 [some 0x06]) = .next t ∧ t.phase = .body) ∧
    ((waiting 0x1 [some 0x15]).phase = .ackWait ∧ ∃ t, step (waiting 0x1 [some 0x15]) = .next t ∧ t.phase = .ackWait) ∧
    (let s := { waiting 0x1 [none] with cfg := { Config.default with maxSendAttempts := some 1 } };
      s.phase = .ackWait ∧ ∃ t, step s = .next t ∧ t.phase = .idle) ∧
    (let s := { waiting 0x0 [none] with
        cfg := { Config.default with maxSendAttempts := some 1, startupMaxAttempts := some 1 } };
      s.phase = .ackWait ∧ s.op = 0x0 ∧ ∃ t, step s = .next t ∧ t.phase = .idle) ∧
    ((reading 0x1 [0x06] [some 0x31]).phase = .body ∧ ∃ t, step (reading 0x1 [0x06] [some 0x31]) = .next t ∧ t.phase = .body) ∧
    ((reading 0x3 frame50.dropLast [some 0x03]).phase = .body ∧
      ∃ t, step (reading 0x3 frame50.dropLast [some 0x03]) = .next t ∧ t.phase = .ackWait) ∧
    ((reading 0x1 frame50.dropLast [some 0x03]).phase = .body ∧
      ∃ t, step (reading 0x1 frame50.dropLast [some 0x03]) = .next t ∧ t.phase = .idle) ∧
    ((waiting 0x1 []).phase ≠ .idle ∧ (waiting 0x1 []).rxs = [] ∧ ∃ t, step (waiting 0x1 []) = .next t) :=
  ⟨⟨rfl, rfl, _, rfl⟩, ⟨rfl, _, rfl, rfl⟩, ⟨rfl, _, rfl, rfl⟩, ⟨rfl, _, rfl, rfl⟩, ⟨rfl, _, rfl, rfl⟩, ⟨rfl, _, rfl, rfl⟩,
    ⟨rfl, rfl, _, rfl, rfl⟩, ⟨rfl, _, rfl, rfl⟩, ⟨rfl, _, rfl, rfl⟩, ⟨rfl, _, rfl, rfl⟩, by decide, rfl, _, rfl⟩
theorem witness_OneReadPerStep : (waiting 0x1 [some 0x15]).resetIn = false ∧ (waiting 0x1 [some 0x15]).phase ≠ .idle ∧
    (waiting 0x1 [some 0x15]).rxs = some 0x15 :: [] ∧ ∃ t, step (waiting 0x1 [some 0x15]) = .next t :=
  ⟨rfl, by decide, rfl, _, rfl⟩
/-- A step that leaves the engine idle, one that does not, and one from IDLE with a record waiting. -/
theorem witness_OneResultExactlyWhenIdle :
    (∃ t, step (reading 0x1 frame50.dropLast [some 0x03]) = .next t ∧ t.phase = .idle) ∧
    (∃ t, step (waiting 0x1 [some 0x15]) = .next t ∧ t.phase ≠ .idle) ∧
    (let s := { State.reset with cmd := [record 0xF none none 0] };
      s.phase = .idle ∧ s.cmd ≠ [] ∧ ∃ t, step s = .next t ∧ t.phase = .idle) :=
  ⟨⟨_, rfl, rfl⟩, ⟨_, rfl, by decide⟩, rfl, by decide, _, rfl, rfl⟩
theorem witness_AckByteOpensTheFrame : (waiting 0x1 [some 0x06]).resetIn = false ∧ (waiting 0x1 [some 0x06]).phase = .ackWait ∧
    (waiting 0x1 [some 0x06]).rxs = some 0x06 :: [] ∧ 0 < (waiting 0x1 [some 0x06]).cfg.rxBufLen := by decide
/-- The ninth byte of a window is still discarded. -/
theorem witness_OtherBytesAreDiscardedAndCounted :
    let s := { waiting 0x1 [some 0x15] with win := 8 }
    s.resetIn = false ∧ s.phase = .ackWait ∧ s.rxs = some 0x15 :: [] ∧ (0x15 : Byte) ≠ 0x06 ∧ s.win + 1 < 10 := by decide
/-- A read timeout, and the tenth byte; with no bound, and with one resend left. -/
theorem witness_NoResponseResendsTheIdenticalFrame :
    (let s := waiting 0x1 [none];
      s.resetIn = false ∧ s.phase = .ackWait ∧ s.rxs = none :: [] ∧ (none : Option Byte) ≠ some 0x06 ∧
      frameIn 18 s.txBuf s.txLen = some frame20 ∧ s.cfg.maxSendAttempts = none) ∧
    (let s := { waiting 0x1 [some 0x00] with win := 9, cfg := { Config.default with maxSendAttempts := some 2 } };
      s.phase = .ackWait ∧ s.rxs = some 0x00 :: [] ∧ (some 0x00 : Option Byte) ≠ some 0x06 ∧ s.win + 1 = 10 ∧
      frameIn 18 s.txBuf s.txLen = some frame20 ∧ s.cfg.maxSendAttempts = some 2 ∧ s.attempt < 2) := by decide
/-- A read timeout outside STARTUP, and the tenth byte under it. -/
theorem witness_LastNoResponseIsAFault :
    (let s := { waiting 0x1 [none] with attempt := 3, cfg := { Config.default with maxSendAttempts := some 3 } };
      s.resetIn = false ∧ s.phase = .ackWait ∧ s.rxs = none :: [] ∧ (none : Option Byte) ≠ some 0x06 ∧
      s.cfg.maxSendAttempts = some 3 ∧ 3 ≤ s.attempt ∧ s.op ≠ 0x0) ∧
    (let s := { waiting 0x0 [some 0x15] with win := 9, cfg := { Config.default with maxSendAttempts := some 1 } };
      s.phase = .ackWait ∧ s.rxs = some 0x15 :: [] ∧ (some 0x15 : Option Byte) ≠ some 0x06 ∧ s.win + 1 = 10 ∧
      s.cfg.maxSendAttempts = some 1 ∧ 1 ≤ s.attempt ∧ s.op = 0x0) := by decide
/-- The last byte that does not fill the buffer. -/
theorem witness_BodyBytesAreAccumulated :
    let s := { reading 0x1 [0x06] [some 0x02] with rxLen := 62 }
    s.resetIn = false ∧ s.phase = .body ∧ s.rxs = some 0x02 :: [] ∧ (0x02 : Byte) ≠ 0x03 ∧
    s.rxLen + 1 < s.cfg.rxBufLen := by decide
/-- A reply that parses, and one that does not. -/
theorem witness_EtxHandsTheFrameToParse :
    (let s := reading 0x1 frame50.dropLast [some 0x03];
      s.resetIn = false ∧ s.phase = .body ∧ s.rxs = some 0x03 :: [] ∧ s.rxBuf.wf = true ∧ s.rxLen < s.cfg.rxBufLen ∧
      okOf (parse s.cfg s.curCmd (s.rxBuf.readSeq 0 s.rxLen ++ [0x03])) = some (.status status50)) ∧
    (let s := reading 0x1 [0x06, 0x31] [some 0x03];
      s.phase = .body ∧ s.rxs = some 0x03 :: [] ∧ s.rxBuf.wf = true ∧ s.rxLen < s.cfg.rxBufLen ∧
      errOf (parse s.cfg s.curCmd (s.rxBuf.readSeq 0 s.rxLen ++ [0x03])) = some (.length 1)) := by decide
/-- V88's capacity: the twenty-eighth byte; and the same under STARTUP. -/
theorem witness_FullBufferIsAFramingFault :
    let s := { reading 0x1 [0x06, 0x41] [some 0x41] with rxLen := 27, cfg := { Config.default with rxBufLen := 28 } }
    s.resetIn = false ∧ s.phase = .body ∧ s.rxs = some 0x41 :: [] ∧ (0x41 : Byte) ≠ 0x03 ∧
    s.rxLen + 1 = s.cfg.rxBufLen ∧ s.rxBuf.wf = true ∧ s.op ≠ 0x0 ∧ ({ s with op := 0x0 } : State).op = 0x0 := by decide
/-- The state of a status read meets the invariant, in any operation that runs it first: V87's, and STARTUP's. -/
theorem reading_inv (code : BitVec 4) (h : code = 0x1 ∨ code = 0x0) : (reading code [0x06, 0x31] [none]).Inv := by
  rcases h with rfl | rfl <;>
  · refine ⟨by decide, by decide, by decide, by decide, by decide, by decide, by decide, by decide, by decide, by decide,
      fun _ => ⟨?_, ⟨Args.empty, frame20, rfl, by decide⟩, by decide, by decide, by decide⟩,
      by decide, fun _ => ⟨by decide, by decide, by decide, ?_⟩⟩
    · first
        | exact ⟨.getStatus, by decide, by decide⟩
        | exact ⟨.startup, by decide, by decide⟩
    intro a h1 h2
    have h2 : a < 2 := h2
    obtain rfl : a = 1 := by omega
    decide
theorem witness_BodyTimeoutIsAFramingFault :
    (let s := reading 0x1 [0x06, 0x31] [none];
      s.Inv ∧ s.resetIn = false ∧ s.phase = .body ∧ s.rxs = none :: [] ∧ s.op ≠ 0x0) ∧
    (reading 0x0 [0x06, 0x31] [none]).Inv :=
  ⟨⟨reading_inv _ (.inl rfl), rfl, rfl, rfl, by decide⟩, reading_inv _ (.inr rfl)⟩
/-- Either value of DES. -/
theorem witness_StatusReplyWritesOnePair : (0x20 : Byte).getLsbD Config.default.layout.gsDes = true ∧
    (0xDF : Byte).getLsbD Config.default.layout.gsDes = false := by decide
theorem witness_GeneralRegistersHaveOneWriter :
    let s := reading 0x1 frame50.dropLast [some 0x03]
    s.resetIn = false ∧ ∃ t, step s = .next t ∧ t.genRegs ≠ s.genRegs := ⟨rfl, _, rfl, by decide⟩
/-- The default layout, which places the limit flags in the order R216 writes them. -/
theorem witness_ClassifyListsTheActiveFlags :
    let pos := softPos Config.default.layout
    pos .hardLimitA = Config.default.layout.axHardLimitA ∧ pos .hardLimitB = Config.default.layout.axHardLimitB ∧
    pos .softLimitA = Config.default.layout.axSoftLimitA ∧ pos .softLimitB = Config.default.layout.axSoftLimitB ∧
    pos .hardLimitA < pos .hardLimitB ∧ pos .hardLimitB < pos .softLimitA ∧ pos .softLimitA < pos .softLimitB := by decide
theorem witness_ResolverFaultIsIgnored : Config.default.valid = true := by decide
/-- Both kinds of reply. -/
theorem witness_MoveReplyStartsThePolls : isMoveOp (waiting 0x5 []).op = true ∧ (waiting 0x5 []).stage = .first ∧
    (Reply.nothing = .nothing ∨ ∃ x, Reply.nothing = .status x) ∧
    (Reply.status status50 = .nothing ∨ ∃ x, Reply.status status50 = .status x) :=
  ⟨rfl, rfl, .inl rfl, .inr ⟨_, rfl⟩⟩
/-- A hard fault, a soft fault under either setting, EXEC clear and EXEC set. -/
theorem witness_MovePollEndsByFaultsThenExec : isMoveOp polling.op = true ∧ polling.stage = .second ∧
    classifyHard polling.cfg 0x08 0x00 ≠ [] ∧ classifyHard polling.cfg 0x80 0x00 = [] ∧
    (polling.cfg.softFaultAborts = true ∧ classifySoft polling.cfg 0x80 0x00 ≠ []) ∧
    ({ polling with cfg := { Config.default with softFaultAborts := false } } : State).cfg.softFaultAborts = false ∧
    classifySoft polling.cfg 0x00 0x00 = [] ∧ (0x00 : Byte).getLsbD polling.cfg.layout.gsExec = false ∧
    (0x40 : Byte).getLsbD polling.cfg.layout.gsExec = true := by decide
theorem witness_FaultResetReportsHardFaults : (waiting 0x2 []).op = 0x2 ∧ (waiting 0x2 []).stage = .first ∧
    classifyHard (waiting 0x2 []).cfg 0xF0 0x00 = [] ∧ classifyHard (waiting 0x2 []).cfg 0x02 0x04 ≠ [] := by decide
theorem witness_SetTmoComparesTheReadBack : (waiting 0x7 []).op = 0x7 ∧ (waiting 0x7 []).stage = .first ∧
    (let s := { waiting 0x7 [] with stage := .second, reqTmo := 27 };
      s.op = 0x7 ∧ s.stage = .second ∧ (27 : BitVec 7) = s.reqTmo ∧ (25 : BitVec 7) ≠ s.reqTmo) := by decide
theorem witness_PlainOperationsReturnTheReply : (waiting 0x0 []).stage = .first ∧ (waiting 0x0 []).op = 0x0 ∧
    (waiting 0x1 []).op = 0x1 ∧ (waiting 0x6 []).op = 0x6 := by decide
/-- Outside STARTUP, and under it with a fault that is not tolerated; with and without opcodes to record. -/
theorem witness_FatalFaultEndsTheOperation : (waiting 0x1 []).op ≠ 0x0 ∧
    ((waiting 0x0 []).op = 0x0 ∧ tolerated (.range 32768) = false) ∧ Raise.opcode 0x31 0x33 = .opcode 0x31 0x33 ∧
    (∀ x a, Raise.escape ≠ .opcode x a) := ⟨by decide, by decide, rfl, fun x a => by simp⟩
/-- One attempt left under a bound of two, no bound, and none left. -/
theorem witness_StartupRetriesToleratedFaults : (waiting 0x0 []).op = 0x0 ∧
    ((∃ n, Raise.framing 3 = .framing n) ∧ (1 : BitVec 4) = 1) ∧ ((∃ x, Raise.checksum 2 = .checksum x) ∧ (2 : BitVec 4) = 2) ∧
    ((∃ x a, Raise.opcode 0x31 0x33 = .opcode x a) ∧ (3 : BitVec 4) = 3) ∧ (Raise.escape = .escape ∧ (6 : BitVec 4) = 6) ∧
    ((∃ n, Raise.length 1 = .length n) ∧ (7 : BitVec 4) = 7) ∧ ((∃ n, Raise.noResponse 1 = .noResponse n) ∧ (8 : BitVec 4) = 8) ∧
    (let s := { waiting 0x0 [] with cfg := { Config.default with startupMaxAttempts := some 2 } };
      s.cfg.startupMaxAttempts = some 2 ∧ s.startupN < 2) ∧
    (waiting 0x0 []).cfg.startupMaxAttempts = none ∧
    (let s := { waiting 0x0 [] with startupN := 2, cfg := { Config.default with startupMaxAttempts := some 2 } };
      s.cfg.startupMaxAttempts = some 2 ∧ 2 ≤ s.startupN) :=
  ⟨rfl, ⟨⟨_, rfl⟩, rfl⟩, ⟨⟨_, rfl⟩, rfl⟩, ⟨⟨_, _, rfl⟩, rfl⟩, ⟨rfl, rfl⟩, ⟨⟨_, rfl⟩, rfl⟩, ⟨⟨_, rfl⟩, rfl⟩, ⟨rfl, by decide⟩,
    rfl, rfl, by decide⟩
theorem witness_ResetAbandonsTheOperation : ({ waiting 0x1 [none] with resetIn := true } : State).resetIn = true := rfl
theorem witness_ConfigurationIsReadOnly : ∃ t, step State.reset = .next t := ⟨_, rfl⟩
/-- The state in which a `get_status` waits for its reply meets the invariant, and so does the state in which the engine
suspends on a read of it. -/
theorem waiting_inv (rxs : List (Option Byte)) : (waiting 0x1 rxs).Inv := by
  refine ⟨?_, ?_, ?_, ?_, ?_, ?_, ?_, ?_, ?_, ?_, fun _ => ⟨⟨.getStatus, rfl, rfl⟩,
    ⟨Args.empty, frame20, (rfl : assemble Config.default .getStatus Args.empty = _), rfl⟩,
    ⟨rfl, rfl, rfl⟩, rfl, fun _ => rfl⟩, fun _ => ⟨rfl, ?_⟩, fun h => by simp [waiting] at h⟩
  all_goals simp only [waiting]
  all_goals decide
theorem witness_StepKeepsTheInvariant : (waiting 0x1 [some 0x06]).Inv ∧ ∃ t, step (waiting 0x1 [some 0x06]) = .next t :=
  ⟨waiting_inv _, _, rfl⟩
/-- An invariant state, and one whose issue slot holds no wire command. -/
theorem witness_InvariantStatesNeverStop : (waiting 0x1 [none]).Inv ∧
    (let s := { State.reset with issue := some [0x32] };
      s.Inv ∧ step s = .refused (.undecodable (.unknownOpcode 0x32))) := by
  refine ⟨waiting_inv _, ⟨by decide, by decide, rfl, rfl, by decide, by decide, by decide, by decide, by decide, by decide,
    fun h => absurd rfl h, fun h => ?_, fun h => ?_⟩, rfl⟩
  · simp [State.reset] at h
  · simp [State.reset] at h
/-- A silent transport under a bound of two: the state meets the invariant too. -/
theorem silent_inv :
    ({ waiting 0x1 [none, none] with cfg := { Config.default with maxSendAttempts := some 2 } } : State).Inv := by
  have h := waiting_inv [none, none]
  exact ⟨by decide, h.records, h.txForm, h.rxForm, h.txSpace, h.rxSpace, h.txLen, h.rxLen, h.attempt, h.startupN,
    fun _ => ⟨⟨.getStatus, rfl, rfl⟩, ⟨Args.empty, frame20, (rfl : assemble Config.default .getStatus Args.empty = _), rfl⟩,
      ⟨rfl, rfl, rfl⟩, by decide, fun _ => rfl⟩, h.ackWait, fun h => by simp [waiting] at h⟩
/-- P2 (a): a timeout, three discarded bytes, the reply; 18 reads and a second frame. P2 (b) with a bound of two. -/
theorem witness_StepsAgreeWithTheBlockingTransaction :
    (let s := waiting 0x1 (none :: some 0x15 :: some 0x00 :: some 0xFF :: frame50.map some);
      s.Inv ∧ s.resetIn = false ∧ s.phase = .ackWait ∧ s.attempt = 1 ∧ s.win = 0 ∧
      frameIn 18 s.txBuf s.txLen = some frame20 ∧ blockXact s.cfg s.rxs = .framed 2 frame50 []) ∧
    (let s := { waiting 0x1 [none, none] with cfg := { Config.default with maxSendAttempts := some 2 } };
      s.Inv ∧ s.resetIn = false ∧ s.phase = .ackWait ∧ s.attempt = 1 ∧ s.win = 0 ∧
      frameIn 18 s.txBuf s.txLen = some frame20 ∧ blockXact s.cfg s.rxs = .silent 2 []) :=
  ⟨⟨waiting_inv _, rfl, rfl, rfl, rfl, rfl, rfl⟩, silent_inv, rfl, rfl, rfl, rfl, rfl, rfl⟩

end Sys2Proof.Tests
end

section
/-! SUPPORT. What an instruction and a step can do, said once: the start of a transaction from any instruction (R101, R181) and
the one event a step takes (R7, R26). -/

namespace Sys2Proof.Machine

/-! ### Executing an instruction -/

/-- The state in which an instruction begins its transaction: a host operation has been accepted (R210), a wire command
changes nothing before it. -/
def entry (i : Instr) (s : State) : State :=
  match i with
  | .opStartup => { accept (hostOpCode .startup) s with startupN := 1 }
  | .opGetStatus => accept (hostOpCode .getStatus) s
  | .opFaultReset => accept (hostOpCode .faultReset) s
  | .opMoveAbsolute _ _ => accept (hostOpCode .moveAbsolute) s
  | .opMoveDelta _ _ => accept (hostOpCode .moveDelta) s
  | .opHome => accept (hostOpCode .home) s
  | .opGetTmo => accept (hostOpCode .getTmo) s
  | .opSetTmo _ => accept (hostOpCode .setTmo) s
  | .opUnsupported code => accept code s
  | .getStatus | .faultReset | .moveAbsolute _ _ | .moveDelta _ _ | .home | .getCommunicationTimeout
  | .setCommunicationTimeout _ => s

@[simp] theorem entry_cfg (i : Instr) (s : State) : (entry i s).cfg = s.cfg := by cases i <;> rfl
@[simp] theorem entry_log (i : Instr) (s : State) : (entry i s).log = s.log := by cases i <;> rfl
@[simp] theorem enterWire_log (i : Instr) (s : State) : (enterWire i s).log = s.log := by cases i <;> rfl
@[simp] theorem takeIssue_log (i : Instr) (s : State) : (takeIssue i s).log = s.log := enterWire_log i _

/-- The ways a transaction of `c` that is begun in `u` can turn out: its frame is sent (SET_TMO then keeps the request), the
timeout is rejected, or an operand is out of range. -/
inductive Opens (c : Cmd) (a : Args) (u : State) : Out → Prop
  | sent {f : List Byte} (q : BitVec 7) (h : assemble u.cfg c a = .ok (some f)) :
      Opens c a u (.next { sendFrame c f (clearFault u) with reqTmo := q })
  | rejected (v : Int) : Opens c a u (.next (finish .rejected (notify (.tmoRange v) (clearFault u))))
  | outOfRange (v : Int) : Opens c a u (.next (finish (.fault (.range v)) (recordFault (.range v) (clearFault u))))

/-- What the meaning of a wire command can do (R181). -/
theorem issueXact_opens (c : Cmd) (a : Args) (u : State) : Opens c a u (issueXact c a u) := by
  rcases issueXact_cases c a u with ⟨f, h, e⟩ | ⟨_, _, e⟩ | ⟨_, v, _, e⟩ <;> rw [e]
  · exact .sent u.reqTmo h
  · exact .rejected a.tmo
  · exact .outOfRange v

/-- What SET_TMO's acceptance can do (R224). -/
theorem execOpSetTmo_opens (v : Int) (s : State) :
    Opens .setCommunicationTimeout ⟨none, none, v⟩ (accept (hostOpCode .setTmo) s) (execOpSetTmo v s) := by
  rcases execOpSetTmo_cases v s with ⟨f, h, e⟩ | ⟨_, e⟩ <;> rw [e]
  · exact .sent (BitVec.ofInt 7 v) h
  · exact .rejected v

/-- An instruction that begins with a wire command begins its transaction (R101). -/
theorem exec_opens {i : Instr} {c : Cmd} {a : Args} (h : firstCmd i = some (c, a)) (s : State) :
    Opens c a (entry i s) (exec i s) := by
  cases i with
  | opUnsupported code => cases h
  | opSetTmo v => cases h; exact execOpSetTmo_opens v s
  | _ => cases h; exact issueXact_opens _ _ _

/-- An unassigned code ends at once with E_UNSUPPORTED, which STARTUP does not tolerate (R229, R227). -/
theorem exec_opUnsupported (code : BitVec 4) (s : State) : exec (.opUnsupported code) s =
    .next (finish (.fault (.unsupported code)) (recordFault (.unsupported code) (accept code s))) :=
  congrArg _ (onFault_ends (by simp [tolerated]))

/-- Everything an instruction can do. -/
theorem exec_cases (i : Instr) (s : State) :
    (∃ c a, firstCmd i = some (c, a) ∧ Opens c a (entry i s) (exec i s)) ∨
    ∃ code, i = .opUnsupported code ∧
      exec i s = .next (finish (.fault (.unsupported code)) (recordFault (.unsupported code) (accept code s))) := by
  cases hf : firstCmd i with
  | some p => exact .inl ⟨p.1, p.2, rfl, exec_opens hf s⟩
  | none =>
    cases i with
    | opUnsupported code => exact .inr ⟨code, rfl, exec_opUnsupported code s⟩
    | _ => cases hf

/-! ### The step -/

/-- The events a step can take (R7, R26): the reset input, nothing, a record, the model's own issue slot, the transport's move, an
answer in the acknowledgment wait, an answer in the body. -/
inductive Takes (s t : State) : Prop
  | reset (hr : s.resetIn = true) (e : t = applyReset s)
  | nothing (hp : s.phase = .idle) (hi : s.issue = none) (hc : s.cmd = []) (e : t = s)
  | record (hp : s.phase = .idle) {r : HostRecord} {q : List HostRecord} (hc : s.cmd = r :: q)
      (e : exec (decodeRecord r) (takeRecord r q s) = .next t)
  | issued (hp : s.phase = .idle) {i : Instr} (e : exec i (takeIssue i s) = .next t)
  | delivery (hp : s.phase ≠ .idle) (e : t = deliver s)
  | ackAnswer (hp : s.phase = .ackWait) {a : Option Byte} {q : List (Option Byte)}
      (e : onAckAnswer a (takeAnswer a q s) = .next t)
  | bodyAnswer (hp : s.phase = .body) {a : Option Byte} {q : List (Option Byte)}
      (e : onBodyAnswer a (takeAnswer a q s) = .next t)

/-- The step of an idle engine takes a record, the issue slot, or nothing (R26, R210). -/
theorem stepIdle_takes {s t : State} (hp : s.phase = .idle) (h : stepIdle s = .next t) : Takes s t := by
  rcases fetch_cases s with ⟨hi, hc, e⟩ | ⟨r, q, _, hc, e⟩ | ⟨bs, i, _, _, e⟩ | ⟨bs, x, _, _, e⟩ <;>
    simp only [stepIdle, e] at h
  · cases h
    exact .nothing hp hi hc rfl
  · exact .record hp hc h
  · exact .issued hp h
  · cases h

/-- A step that gives a next state takes one of the events. -/
theorem step_takes {s t : State} (h : step s = .next t) : Takes s t := by
  rw [step] at h
  split at h
  next hr =>
    cases h
    exact .reset hr rfl
  next =>
    cases hp : s.phase <;> simp only [hp] at h
    case idle => exact stepIdle_takes hp h
    case ackWait =>
      rcases onRead_cases onAckAnswer s with ⟨_, e⟩ | ⟨a, q, _, e⟩ <;> rw [e] at h
      · cases h
        exact .delivery (by simp [hp]) rfl
      · exact .ackAnswer hp h
    case body =>
      rcases onRead_cases onBodyAnswer s with ⟨_, e⟩ | ⟨a, q, _, e⟩ <;> rw [e] at h
      · cases h
        exact .delivery (by simp [hp]) rfl
      · exact .bodyAnswer hp h

end Sys2Proof.Machine
end

section
/-! SUPPORT. The resolver-fault bit (R102 d): a bit of an axis byte that no fault flag of R216 stands at. -/

namespace Sys2Proof.Machine

/-- Flipping one bit of a byte leaves every other bit (R9). -/
theorem bitAt_xor_bitByte (b : Byte) {n p : Fin 8} (h : p ≠ n) : bitAt (b ^^^ bitByte n) p = bitAt b p := by
  have hn : ¬(n.val = p.val) := fun e => h (Fin.ext e.symm)
  have hbit : (bitByte n).getLsbD p.val = false := by
    rw [bitByte, ← BitVec.twoPow_eq, BitVec.getLsbD_twoPow]
    simp [hn]
  rw [bitAt, BitVec.getLsbD_xor, hbit, Bool.xor_false, bitAt]

/-- The other named positions of an axis byte, listed after the resolver-fault bit (R96), are not its position. -/
theorem ne_resolverFault_of_mem {l : Layout} (h : l.ax.Nodup) {p : Fin 8} (hp : p ∈ l.ax.tail) : p ≠ l.axResolverFault :=
  fun e => (List.nodup_cons.1 h).1 (e ▸ hp)

/-- In a layout R8 allows, no hard-fault flag stands at the resolver-fault bit. -/
theorem hardPos_ne_resolverFault {l : Layout} (h : l.ax.Nodup) (f : HardFlag) : hardPos l f ≠ l.axResolverFault :=
  ne_resolverFault_of_mem h (by cases f <;> simp [Layout.ax, hardPos])

/-- In a layout R8 allows, no soft-fault flag stands at the resolver-fault bit. -/
theorem softPos_ne_resolverFault {l : Layout} (h : l.ax.Nodup) (f : SoftFlag) : softPos l f ≠ l.axResolverFault :=
  ne_resolverFault_of_mem h (by cases f <;> simp [Layout.ax, softPos])

/-- The hard faults of an axis byte do not depend on its resolver-fault bit (R102 d). -/
theorem axisHard_xor_resolverFault {l : Layout} (h : l.ax.Nodup) (ax : Axis) (b : Byte) :
    axisHard l ax (b ^^^ bitByte l.axResolverFault) = axisHard l ax b := by
  simp only [axisHard, bitAt_xor_bitByte b (hardPos_ne_resolverFault h _)]

/-- The soft faults of an axis byte do not depend on its resolver-fault bit (R102 d). -/
theorem axisSoft_xor_resolverFault {l : Layout} (h : l.ax.Nodup) (ax : Axis) (b : Byte) :
    axisSoft l ax (b ^^^ bitByte l.axResolverFault) = axisSoft l ax b := by
  simp only [axisSoft, bitAt_xor_bitByte b (softPos_ne_resolverFault h _)]

/-- The named positions of an axis byte are distinct in a configuration R8 allows (91_not_in_source N1). -/
theorem ax_nodup_of_valid {c : Config} (h : c.valid = true) : c.layout.ax.Nodup := by
  simp only [Config.valid, Layout.valid, Bool.and_eq_true, decide_eq_true_eq] at h
  obtain ⟨_, ⟨⟨_, hax⟩, _⟩, _⟩ := h
  exact hax

/-- Settles O46: each list is made of the two axis bytes' lists, and neither kind of flag stands at the resolver-fault bit. -/
theorem resolverFaultIsIgnored : Obligations.ResolverFaultIsIgnored := by
  intro c ps ts hc
  have hax := ax_nodup_of_valid hc
  simp only [classifyHard, classifySoft, axisHard_xor_resolverFault hax, axisSoft_xor_resolverFault hax, and_self]

end Sys2Proof.Machine
end

section
/-! SUPPORT. Decoding what was encoded: the int16 field of a move frame (R93, R98), the rows of the opcode table (R107), the
operation codes (R100). -/

namespace Sys2Proof.Decoding

open Sys2Proof.Machine Sys2Proof.Laws.TableRow

/-! ### The operand fields -/

/-- The two bytes of `encode_int16`, read low byte first, are the value (R120, R121). -/
theorem half_of_encodeInt16 {v : Int} (h1 : -32768 ≤ v) (h2 : v ≤ 32767) :
    (BitVec.ofNat 8 ((v % 65536).toNat / 256) ++ BitVec.ofNat 8 (v % 65536).toNat : Half).toInt = v := by
  have hw : (BitVec.ofNat 8 ((v % 65536).toNat / 256) ++ BitVec.ofNat 8 (v % 65536).toNat : Half) = BitVec.ofInt 16 v := by
    apply BitVec.eq_of_toNat_eq
    rw [BitVec.toNat_append, ← Nat.shiftLeft_add_eq_or_of_lt (BitVec.isLt _), Nat.shiftLeft_eq]
    simp only [BitVec.toNat_ofNat, BitVec.toNat_ofInt]
    omega
  rw [hw, BitVec.toInt_ofInt]
  simp only [Int.bmod]
  omega

/-- An operand a move frame can hold is in the range of `encode_int16`, the sentinel standing for an absent one (R98). -/
theorem axisValue_range {sent : Int} {o : Option Int} (hs : fitsInt16 sent = true) (ho : wireAxisOk sent o = true) :
    -32768 ≤ axisValue sent o ∧ axisValue sent o ≤ 32767 := by
  cases o <;> simp_all [wireAxisOk, fitsInt16, axisValue]

/-- The operand read from the field of a move frame is the one it was written for (R98). -/
theorem wireAxis_encode {sent : Int} {o : Option Int} (hs : fitsInt16 sent = true) (ho : wireAxisOk sent o = true) :
    wireAxis sent (BitVec.ofNat 8 (axisValue sent o % 65536).toNat)
      (BitVec.ofNat 8 ((axisValue sent o % 65536).toNat / 256)) = o := by
  obtain ⟨h1, h2⟩ := axisValue_range hs ho
  simp only [wireAxis, half_of_encodeInt16 h1 h2]
  cases o with
  | none => simp [axisValue]
  | some v =>
    have hv : v ≠ sent := by simp_all [wireAxisOk]
    simp [axisValue, hv]

/-- The operands read from the data of a move frame are those it was assembled from (R93, R98). -/
theorem wireAxes_encodeAxes {sent : Int} {p t : Option Int} (hs : fitsInt16 sent = true) (hp : wireAxisOk sent p = true)
    (ht : wireAxisOk sent t = true) : wireAxes sent (encodeAxes sent p t) = (p, t) := by
  obtain ⟨hp1, hp2⟩ := axisValue_range hs hp
  obtain ⟨ht1, ht2⟩ := axisValue_range hs ht
  simp [encodeAxes, moveData, encodeInt16_of_range hp1 hp2, encodeInt16_of_range ht1 ht2, wireAxes, wireAxis_encode hs hp,
    wireAxis_encode hs ht]

/-- The timeout read from the data byte of a legal value is the value (R99, R164). -/
theorem timeoutValue_ofInt {t : Int} (h : tmoOk t = true) : ((timeoutValue (BitVec.ofInt 8 t)).toNat : Int) = t := by
  simp only [tmoOk, Const.tmoMin, Const.tmoMax, Bool.and_eq_true, decide_eq_true_eq] at h
  simp only [timeoutValue, BitVec.extractLsb'_toNat, BitVec.toNat_ofInt, Nat.shiftRight_zero]
  omega

/-! ### The rows of the opcode table -/

/-- No word is spelled by two rows of the table: on the bits both masks look at, their patterns differ. -/
theorem wireRows_disjoint : ∀ r ∈ wireRows, ∀ q ∈ wireRows, r ≠ q → r.pattern &&& q.mask ≠ q.pattern &&& r.mask := by
  decide

/-- At most one row is spelled by `opcode ++ data` (R107). -/
theorem spells_unique {r q : WireRow} {op : Byte} {data : List Byte} (hr : r ∈ wireRows) (hq : q ∈ wireRows)
    (h1 : r.spells op data = true) (h2 : q.spells op data = true) : r = q := by
  simp only [WireRow.spells, Bool.and_eq_true, beq_iff_eq] at h1 h2
  obtain ⟨hr1, _⟩ := h1
  obtain ⟨hq1, _⟩ := h2
  by_contra hne
  apply wireRows_disjoint r hr q hq hne
  rw [← hr1, ← hq1, BitVec.and_assoc, BitVec.and_assoc, BitVec.and_comm r.mask]

/-- A payload that spells a row decodes to the row's instruction (R107). -/
theorem decodePayload_of_spells {r : WireRow} {op : Byte} {data : List Byte} (hr : r ∈ wireRows)
    (h : r.spells op data = true) : decodePayload (op :: data) = .ok (wireInstr r.cmd data) := by
  obtain ⟨q, hq⟩ : ∃ q, wireRows.find? (fun r => r.spells op data) = some q :=
    Option.isSome_iff_exists.1 (List.find?_isSome.2 ⟨r, hr, h⟩)
  have hqr : q = r :=
    spells_unique (List.mem_of_find?_eq_some hq) hr (List.find?_some (p := fun r : WireRow => r.spells op data) hq) h
  simp only [decodePayload, hq, hqr]

/-- The encoding of every instruction spells the row of the instruction (R107). -/
theorem encode_spellsRow (i : Instr) : Statement i := by
  cases i with
  | getStatus => exact getStatus
  | faultReset => exact faultReset
  | moveAbsolute p t => exact moveAbsolute p t
  | moveDelta p t => exact moveDelta p t
  | home => exact home
  | getCommunicationTimeout => exact getCommunicationTimeout
  | setCommunicationTimeout t => exact setCommunicationTimeout t
  | opStartup => exact opStartup
  | opGetStatus => exact opGetStatus
  | opFaultReset => exact opFaultReset
  | opMoveAbsolute p t => exact opMoveAbsolute p t
  | opMoveDelta p t => exact opMoveDelta p t
  | opHome => exact opHome
  | opGetTmo => exact opGetTmo
  | opSetTmo v => exact opSetTmo v
  | opUnsupported code => exact opUnsupported code

/-! ### Decoding the encoding -/

/-- The payload of a well-formed wire command decodes to its command's instruction, whatever its data (R88, R107). -/
theorem decode_payload {c : Config} {i : Instr} {op : Byte} {data : List Byte} {cmd : Cmd} {a : Args}
    (hwf : WellFormed c i = true) (he : encode i = .payload (op :: data)) (hf : firstCmd i = some (cmd, a)) :
    decode (encode i) = .ok (wireInstr cmd data) := by
  obtain ⟨hrow, _⟩ := encode_spellsRow i c hwf
  rw [he] at hrow ⊢
  obtain ⟨r, hr, hcmd, hs⟩ := hrow
  have hc : r.cmd = cmd := by simpa [hf] using hcmd.symm
  rw [decode, decodePayload_of_spells hr hs, hc]

/-- A code of 8 or above is unassigned (R100). -/
theorem hostOpOf_unassigned {code : BitVec 4} (h : 8 ≤ code.toNat) : hostOpOf code = none := by
  revert code
  decide

/-- Decoding inverts encoding on the well-formed instructions (R88, R100, R107). -/
theorem decode_encode {c : Config} {i : Instr} (h : WellFormed c i = true) : decode (encode i) = .ok i := by
  cases i with
  | getStatus => exact decode_payload h rfl rfl
  | faultReset => exact decode_payload h rfl rfl
  | home => exact decode_payload h rfl rfl
  | getCommunicationTimeout => exact decode_payload h rfl rfl
  | moveAbsolute p t =>
    rw [decode_payload h rfl rfl, wireInstr]
    simp only [WellFormed, Bool.and_eq_true] at h
    rw [wireAxes_encodeAxes (by decide) h.1 h.2]
  | moveDelta p t =>
    rw [decode_payload h rfl rfl, wireInstr]
    simp only [WellFormed, Bool.and_eq_true] at h
    rw [wireAxes_encodeAxes (by decide) h.1 h.2]
  | setCommunicationTimeout t =>
    rw [decode_payload h rfl rfl, wireInstr, List.headD_cons, timeoutValue_ofInt h]
  | opUnsupported code =>
    have hc : hostOpOf code = none := hostOpOf_unassigned (of_decide_eq_true h)
    simp only [encode, plainRecord, decode, decodeRecord, hc]
  | opStartup => rfl
  | opGetStatus => rfl
  | opFaultReset => rfl
  | opMoveAbsolute p t => rfl
  | opMoveDelta p t => rfl
  | opHome => rfl
  | opGetTmo => rfl
  | opSetTmo v => rfl

/-- Settles O14: by the row each encoding spells, and by the record each operation code stands for. -/
theorem decodeInvertsEncode : Obligations.DecodeInvertsEncode := by
  intro c
  refine ⟨fun i h => ⟨decode_encode h, ?_⟩, fun r h => ⟨decodeRecord r, rfl, decodeRecord_wellFormed c r h⟩⟩
  obtain ⟨_, hfits⟩ := encode_spellsRow i c h
  exact hfits

end Sys2Proof.Decoding
end

section
/-! SUPPORT. The result records of a step (R211, R262): every operation that runs after the step's event ends it idle with one
result, or busy with none. -/

namespace Sys2Proof.Machine

/-- The log has grown from `l` by actions that are no result. -/
def Quiet (l : List Action) (s : State) : Prop := ∃ k, s.log = l ++ k ∧ ∀ x ∈ k, isResult x = false

/-- Since the log was `l`, the engine emitted one result, last of all, if it is idle now, and none if it is busy (R211). -/
def Reports (l : List Action) (t : State) : Prop :=
  (t.phase = .idle → ∃ k r, t.log = l ++ k ++ [.result r] ∧ ∀ x ∈ k, isResult x = false) ∧
    (t.phase ≠ .idle → Quiet l t)

section
variable {l : List Action} {s t : State}

/-- Nothing has been appended yet. -/
theorem Quiet.refl (s : State) : Quiet s.log s := ⟨[], by simp, by simp⟩

/-- Actions that are no result keep the log quiet. -/
theorem Quiet.append (h : Quiet l s) {k : List Action} (e : t.log = s.log ++ k) (hk : ∀ x ∈ k, isResult x = false) :
    Quiet l t := by
  obtain ⟨j, hj, hq⟩ := h
  refine ⟨j ++ k, by rw [e, hj, List.append_assoc], fun x hx => ?_⟩
  exact (List.mem_append.1 hx).elim (hq x) (hk x)

/-- What leaves the log alone keeps it quiet. -/
theorem Quiet.of_log_eq (h : Quiet l s) (e : t.log = s.log) : Quiet l t := h.append (k := []) (by simp [e]) (by simp)

/-- Notifications are no results. -/
theorem Quiet.notifyAll (h : Quiet l s) (ns : List Notification) : Quiet l (notifyAll ns s) :=
  h.append (notifyAll_log ns s) (by simp [isResult])

/-- `Finish` after a quiet log reports its result. -/
theorem Quiet.finish (h : Quiet l s) (r : Result) : Reports l (finish r s) := by
  obtain ⟨k, hk, hq⟩ := h
  exact ⟨fun _ => ⟨k, r, by rw [finish_log, hk], hq⟩, fun hp => absurd (finish_phase r s) hp⟩

/-- A busy engine with a quiet log has nothing to report. -/
theorem Quiet.busy (h : Quiet l s) (hp : s.phase ≠ .idle) : Reports l s := ⟨fun hi => absurd hi hp, fun _ => h⟩

/-- The first frame of a transaction reports nothing. -/
theorem Quiet.sendFrame (h : Quiet l s) (c : Cmd) (f : List Byte) (q : BitVec 7) :
    Reports l { sendFrame c f s with reqTmo := q } :=
  (h.append (k := [.txWrite f]) rfl (by simp [isResult])).busy (by simp)

/-- The fault handler reports the operation's fault, or goes on with STARTUP (R266, R226). -/
theorem onFault_reports (h : Quiet l s) (e : Raise) : Reports l (onFault e s) := by
  have hrec : Quiet l (recordFault e s) := h.of_log_eq (recordFault_log e s)
  rcases onFault_cases e s with ⟨_, hf⟩ | ⟨_, _, hf⟩ | ⟨_, _, hf⟩ <;> rw [hf]
  · exact hrec.finish _
  · exact hrec.finish _
  · exact Quiet.sendFrame (s := clearFault { recordFault e s with startupN := s.startupN + 1 }) hrec _ _ _

/-- The start of a transaction reports a rejection or E_RANGE, or sends. -/
theorem Opens.reports {c : Cmd} {a : Args} {o : Out} (h : Opens c a s o) (hq : Quiet l s) (e : o = .next t) :
    Reports l t := by
  have hclear : Quiet l (clearFault s) := hq.of_log_eq rfl
  cases h <;> cases e
  case sent q _ => exact hclear.sendFrame _ _ q
  case rejected v => exact (hclear.notifyAll [.tmoRange v]).finish _
  case outOfRange v => exact (hclear.of_log_eq (recordFault_log _ _)).finish _

/-- Executing an instruction reports its operation's end, if it ends. -/
theorem exec_reports {i : Instr} (hq : Quiet l s) (e : exec i s = .next t) : Reports l t := by
  rcases exec_cases i s with ⟨c, a, _, h⟩ | ⟨code, _, h⟩
  · exact h.reports (hq.of_log_eq (entry_log i s)) e
  · rw [h] at e
    cases e
    exact (hq.of_log_eq (by simp)).finish _

/-- `Continue` reports the operation's result after its notifications, or sends the next command (R212). -/
theorem continueOp_reports {r : Reply} (hq : Quiet l s) (e : continueOp r s = .next t) : Reports l t := by
  rcases continueOp_cases r s with h | ⟨ns, x, h⟩ | ⟨g, c, f, _, _, _, h⟩ <;> rw [h] at e <;> cases e
  · exact (hq.notifyAll ns).finish x
  · exact Quiet.sendFrame (s := clearFault { s with stage := g }) hq _ _ _

/-- `Complete` reports by the fault handler or by `Continue` (R189). -/
theorem complete_reports (hq : Quiet l s) (e : complete s = .next t) : Reports l t := by
  rcases complete_cases s with ⟨_, h⟩ | ⟨_, x, _, h⟩ | ⟨_, r, _, h⟩ <;> rw [h] at e
  · cases e
  · cases e
    exact onFault_reports hq x
  · exact continueOp_reports (hq.of_log_eq (by simp)) e

/-- `NoResponse` reports by the fault handler, or resends (R185, R186). -/
theorem noResponse_reports (hq : Quiet l s) (e : noResponse s = .next t) : Reports l t := by
  rcases noResponse_cases s with ⟨_, h⟩ | ⟨_, _, h⟩ | ⟨_, _, h⟩ <;> rw [h] at e <;> cases e
  · exact onFault_reports hq _
  · exact (hq.append (k := [.txWrite (s.txBuf.readSeq 0 s.txLen)]) rfl (by simp [isResult])).busy (by simp)

/-- An answer in the acknowledgment wait reports nothing unless it is the last no-response (R182 to R186). -/
theorem onAckAnswer_reports {a : Option Byte} (hq : Quiet l s) (hp : s.phase = .ackWait)
    (e : onAckAnswer a s = .next t) : Reports l t := by
  rcases onAckAnswer_cases a s with ⟨_, h⟩ | ⟨_, h⟩ | ⟨b, _, _, _, h⟩ | ⟨b, _, _, _, h⟩ <;> rw [h] at e
  · exact noResponse_reports hq e
  · rw [ackSeen] at e
    split at e <;> cases e
    exact Quiet.busy (hq.of_log_eq rfl) (by simp)
  · cases e
    exact Quiet.busy (hq.of_log_eq rfl) (by simp [hp])
  · exact noResponse_reports (s := { s with win := s.win + 1 }) hq e

/-- An answer in the body reports nothing unless it ends the frame (R187, R188). -/
theorem onBodyAnswer_reports {a : Option Byte} (hq : Quiet l s) (hp : s.phase = .body)
    (e : onBodyAnswer a s = .next t) : Reports l t := by
  rcases onBodyAnswer_cases a s with ⟨_, h⟩ | ⟨b, _, _, h⟩ | ⟨b, _, _, _, h⟩ | ⟨b, _, _, _, h⟩ <;> rw [h] at e
  · exact complete_reports hq e
  · cases e
  · exact complete_reports (hq.of_log_eq (storeRx_log b s)) e
  · cases e
    exact (hq.of_log_eq (storeRx_log b s)).busy (by simp [hp])

end

/-- Settles O34, by the event the step takes: a record or an answer is logged first and is no result, and what follows it
reports; an engine that waits for an answer is busy. -/
theorem oneResultExactlyWhenIdle : Obligations.OneResultExactlyWhenIdle := by
  intro s t hr hev h
  change Reports s.log t
  have hq := Quiet.refl s
  cases step_takes h with
  | reset hr' _ => simp [hr] at hr'
  | nothing hp hi hc _ => exact absurd (hev hp) (by simp [hi, hc])
  | @record hp r q _ e => exact exec_reports (hq.append (takeRecord_log r q s) (by simp [isResult])) e
  | @issued hp i e => exact exec_reports (hq.of_log_eq (takeIssue_log i s)) e
  | delivery hp e =>
    subst e
    exact (hq.of_log_eq (deliver_log s)).busy (by simpa using hp)
  | @ackAnswer hp a q e =>
    exact onAckAnswer_reports (hq.append (takeAnswer_log a q s) (by simp [isResult])) hp e
  | @bodyAnswer hp a q e =>
    exact onBodyAnswer_reports (hq.append (takeAnswer_log a q s) (by simp [isResult])) hp e

end Sys2Proof.Machine
end

section
/-! SUPPORT. The invariant of the engine in three parts: what holds in every phase (`Sound`), what lets a transaction of a command
run (`Ready`), and the transaction itself (`Busy`); and what each operation of the engine does to the parts. -/

namespace Sys2Proof.Machine

/-! ### The bounds of R8 -/

/-- A first count is within every bound a configuration may have (R8). -/
theorem within_one {b : Option Nat} (h : boundOk b = true) : within b 1 = true := by
  cases b with
  | none => rfl
  | some n => exact h

/-- Where a bound is not reached, one more is within it (R186, R226). -/
theorem within_succ {b : Option Nat} {n : Nat} (h : reached b n = false) : within b (n + 1) = true := by
  cases b with
  | none => rfl
  | some m =>
    simp only [reached, decide_eq_false_iff_not] at h
    simp only [within, decide_eq_true_eq]
    omega

/-- What the invariant uses of a configuration R8 allows. -/
theorem bounds_of_valid {c : Config} (h : c.valid = true) :
    boundOk c.maxSendAttempts = true ∧ boundOk c.startupMaxAttempts = true ∧ Const.rxBufFloor ≤ c.rxBufLen := by
  simp only [Config.valid, Bool.and_eq_true, decide_eq_true_eq] at h
  obtain ⟨⟨⟨⟨hmax, hstart⟩, hrx⟩, _⟩, _⟩ := h
  exact ⟨hmax, hstart, hrx⟩

/-! ### What holds in every phase -/

/-- The clauses of the invariant that hold in every phase. -/
structure Sound (s : State) : Prop where
  config : s.cfg.valid = true
  records : ∀ r ∈ s.cmd, r.fits s.cfg.argBits = true
  txForm : s.txBuf.wf = true
  rxForm : s.rxBuf.wf = true
  txSpace : ∀ c ∈ s.txBuf, c.1 < Const.txBufLen
  rxSpace : ∀ c ∈ s.rxBuf, c.1 < s.cfg.rxBufLen
  txLen : s.txLen ≤ Const.txBufLen
  rxLen : s.rxLen ≤ s.cfg.rxBufLen
  attempt : 1 ≤ s.attempt
  startupN : 1 ≤ s.startupN

/-- The fields `Sound` reads. -/
def State.stores (s : State) : Config × List HostRecord × Memory × Memory × Nat × Nat × Nat × Nat :=
  (s.cfg, s.cmd, s.txBuf, s.rxBuf, s.txLen, s.rxLen, s.attempt, s.startupN)

/-- What leaves these fields alone keeps a state sound. -/
theorem Sound.of_stores_eq {s t : State} (h : Sound s) (e : t.stores = s.stores) : Sound t := by
  simp only [State.stores, Prod.mk.injEq] at e
  obtain ⟨hcfg, hcmd, htx, hrx, htl, hrl, hat, hsn⟩ := e
  obtain ⟨h1, h2, h3, h4, h5, h6, h7, h8, h9, h10⟩ := h
  constructor <;> simpa only [hcfg, hcmd, htx, hrx, htl, hrl, hat, hsn]

@[simp] theorem notify_stores (n : Notification) (s : State) : (notify n s).stores = s.stores := rfl
@[simp] theorem clearFault_stores (s : State) : (clearFault s).stores = s.stores := rfl
@[simp] theorem accept_stores (o : BitVec 4) (s : State) : (accept o s).stores = s.stores := rfl
@[simp] theorem deliver_stores (s : State) : (deliver s).stores = s.stores := by simp [State.stores]
@[simp] theorem notifyAll_stores (ns : List Notification) (s : State) : (notifyAll ns s).stores = s.stores := by
  simp [State.stores]
@[simp] theorem recordFault_stores (e : Raise) (s : State) : (recordFault e s).stores = s.stores := by simp [State.stores]
@[simp] theorem updateFor_stores (r : Reply) (s : State) : (updateFor r s).stores = s.stores := by simp [State.stores]
@[simp] theorem takeIssue_stores (i : Instr) (s : State) : (takeIssue i s).stores = s.stores := by cases i <;> rfl

/-- STARTUP's entry writes `startup_n`, and no other entry writes a field `Sound` reads. -/
theorem Sound.entry {s : State} (h : Sound s) (i : Instr) : Sound (entry i s) := by
  cases i with
  | opStartup => exact { h with startupN := Nat.le_refl 1 }
  | _ => exact h.of_stores_eq rfl

/-- Taking a record leaves records the host can place. -/
theorem Sound.takeRecord {s : State} {r : HostRecord} {q : List HostRecord} (h : Sound s) (hc : s.cmd = r :: q) :
    Sound (takeRecord r q s) :=
  { h with records := fun x hx => h.records x (hc ▸ List.mem_cons_of_mem r hx) }

/-- Storing a byte in a buffer that has room stays in its space (R50, R187). -/
theorem Sound.storeRx {s : State} (h : Sound s) (b : Byte) (hroom : s.rxLen < s.cfg.rxBufLen) : Sound (storeRx b s) :=
  { h with
    rxForm := Memory.wf_write _ _ h.rxForm
    rxSpace := fun _ hc => (Memory.mem_write hc).elim (h.rxSpace _) (fun e => e ▸ hroom)
    rxLen := hroom }

/-- The invariant, part by part. -/
theorem inv_iff (s : State) : s.Inv ↔ Sound s ∧ (s.phase ≠ .idle → Busy s) ∧
    (s.phase = .ackWait → s.rxLen = 0 ∧ s.win < Const.ackWindow) ∧
    (s.phase = .body → 1 ≤ s.rxLen ∧ s.rxLen < s.cfg.rxBufLen ∧ s.rxBuf.read 0 = Const.ack ∧
      ∀ a, 1 ≤ a → a < s.rxLen → s.rxBuf.read a ≠ Const.etx) :=
  ⟨fun ⟨h1, h2, h3, h4, h5, h6, h7, h8, h9, h10, hb, ha, hr⟩ =>
      ⟨⟨h1, h2, h3, h4, h5, h6, h7, h8, h9, h10⟩, hb, ha, hr⟩,
    fun ⟨⟨h1, h2, h3, h4, h5, h6, h7, h8, h9, h10⟩, hb, ha, hr⟩ =>
      ⟨h1, h2, h3, h4, h5, h6, h7, h8, h9, h10, hb, ha, hr⟩⟩

/-- An invariant state is sound. -/
theorem State.Inv.sound {s : State} (h : s.Inv) : Sound s := ((inv_iff s).1 h).1

/-- An idle engine meets the invariant as soon as it is sound. -/
theorem Sound.inv_of_idle {s : State} (h : Sound s) (hp : s.phase = .idle) : s.Inv :=
  (inv_iff s).2 ⟨h, fun hn => absurd hp hn, fun ha => by simp [hp] at ha, fun hb => by simp [hp] at hb⟩

/-- An engine that waits for an acknowledgment meets the invariant when it runs a transaction with an open window. -/
theorem Sound.inv_of_ackWait {s : State} (h : Sound s) (hb : Busy s) (hp : s.phase = .ackWait)
    (hw : s.rxLen = 0 ∧ s.win < Const.ackWindow) : s.Inv :=
  (inv_iff s).2 ⟨h, fun _ => hb, fun _ => hw, fun hn => by simp [hp] at hn⟩

/-- An operation that ends with the buffers and counts as they were keeps the invariant. -/
theorem Sound.finish_inv {s u : State} (h : Sound s) (e : u.stores = s.stores) (r : Result) : (finish r u).Inv :=
  Sound.inv_of_idle (h.of_stores_eq e) rfl

/-! ### What lets a transaction run -/

/-- A transaction of `c` may run: `c` is the command of the operation and stage, and STARTUP has not passed its bound. -/
structure Ready (c : Cmd) (s : State) : Prop where
  paired : ∃ o, hostOpOf s.op = some o ∧ stageCmd o s.stage = some c
  tries : s.op = hostOpCode .startup → within s.cfg.startupMaxAttempts s.startupN = true

/-- A running transaction's command may run. -/
theorem Busy.ready {s : State} (h : Busy s) : Ready s.curCmd s := ⟨h.paired, h.tries⟩

/-- The code of an operation stands for it (R100). -/
@[simp] theorem hostOpOf_hostOpCode (o : HostOp) : hostOpOf (hostOpCode o) = some o := by cases o <;> rfl

/-- STARTUP has one stage (R226). -/
theorem Ready.stage_of_startup {c : Cmd} {s : State} (h : Ready c s) (ho : s.op = hostOpCode .startup) :
    s.stage = .first := by
  obtain ⟨o, hop, hc⟩ := h.paired
  rw [ho, hostOpOf_hostOpCode] at hop
  cases hop
  cases hs : s.stage with
  | first => rfl
  | second => simp [hs, stageCmd] at hc

/-- The command of an operation's first stage may run when the operation is entered. -/
theorem ready_first {o : HostOp} {c : Cmd} {u : State} (hv : u.cfg.valid = true) (ho : hostOpOf u.op = some o)
    (hs : u.stage = .first) (hc : stageCmd o .first = some c) (hn : o = .startup → u.startupN = 1) : Ready c u where
  paired := ⟨o, ho, by rw [hs, hc]⟩
  tries hop := by
    rw [hop, hostOpOf_hostOpCode] at ho
    obtain ⟨_, hbound, _⟩ := bounds_of_valid hv
    rw [hn (Option.some.inj ho).symm]
    exact within_one hbound

/-- A record's instruction enters the operation its first command belongs to (R101, R210). -/
theorem entry_ready_of_record {r : HostRecord} {c : Cmd} {a : Args} {u : State} (hv : u.cfg.valid = true)
    (h : firstCmd (decodeRecord r) = some (c, a)) : Ready c (entry (decodeRecord r) u) := by
  cases ho : hostOpOf r.op with
  | none => simp [decodeRecord, ho, firstCmd] at h
  | some o =>
    cases o with
    | startup =>
      simp only [decodeRecord, ho] at h ⊢
      cases h
      exact ready_first hv rfl rfl rfl (fun _ => rfl)
    | _ =>
      simp only [decodeRecord, ho] at h ⊢
      cases h
      exact ready_first hv rfl rfl rfl (by simp)

/-- A command from the issue slot enters the operation that begins with it (log entry 8). -/
theorem entry_ready_of_issue {i : Instr} {c : Cmd} {a : Args} {s : State} (hv : s.cfg.valid = true)
    (h : firstCmd i = some (c, a)) : Ready c (entry i (takeIssue i s)) := by
  cases i with
  | opUnsupported code => cases h
  | opStartup =>
    cases h
    exact ready_first hv rfl rfl rfl (fun _ => rfl)
  | _ =>
    cases h
    exact ready_first hv rfl rfl rfl (by simp)

/-! ### Starting a transaction and taking a fault -/

/-- Sending the frame of a command that may run gives a state that meets the invariant (R52, R181). -/
theorem Sound.sendFrame_inv {c : Cmd} {a : Args} {f : List Byte} {u : State} (h : Sound u) (hr : Ready c u)
    (ha : assemble u.cfg c a = .ok (some f)) (q : BitVec 7) :
    ({ sendFrame c f (clearFault u) with reqTmo := q } : State).Inv := by
  have hlen : f.length ≤ Const.txBufLen := assemble_length_le ha
  have hframe : frameIn Const.txBufLen (u.txBuf.writeSeq 0 f) f.length = some f := by
    rw [frameIn_of_le _ hlen, Memory.readSeq_writeSeq _ _ _ h.txForm]
  have hspace : ∀ c ∈ u.txBuf.writeSeq 0 f, c.1 < Const.txBufLen := fun c hc =>
    (Memory.mem_writeSeq hc).elim (h.txSpace c) (fun hin => by omega)
  have hsends : within u.cfg.maxSendAttempts 1 = true := within_one (bounds_of_valid h.config).1
  refine Sound.inv_of_ackWait ?_ ⟨hr.paired, ⟨a, f, ha, hframe⟩, ⟨rfl, rfl, rfl⟩, hsends, hr.tries⟩ rfl
      ⟨rfl, Nat.zero_lt_succ _⟩
  exact { h with
    txForm := Memory.wf_writeSeq 0 f h.txForm, txSpace := hspace, txLen := hlen
    rxLen := Nat.zero_le _, attempt := Nat.le_refl 1 }

/-- Whatever the start of a transaction turns out to be, it keeps the invariant. -/
theorem Opens.inv {c : Cmd} {a : Args} {u t : State} {o : Out} (h : Opens c a u o) (hu : Sound u) (hr : Ready c u)
    (e : o = .next t) : t.Inv := by
  cases h <;> cases e
  case sent q ha => exact hu.sendFrame_inv hr ha q
  case rejected v => exact hu.finish_inv (by simp) _
  case outOfRange v => exact hu.finish_inv (by simp) _

/-- Executing an instruction keeps the invariant where its first command may run. -/
theorem exec_inv {i : Instr} {u t : State} (hu : Sound u)
    (hr : ∀ c a, firstCmd i = some (c, a) → Ready c (entry i u)) (e : exec i u = .next t) : t.Inv := by
  rcases exec_cases i u with ⟨c, a, hf, h⟩ | ⟨code, _, h⟩
  · exact h.inv (hu.entry i) (hr c a hf) e
  · rw [h] at e
    cases e
    exact hu.finish_inv (by simp) _

/-- The fault handler ends the operation, or counts and begins another attempt of STARTUP (R226, R266). -/
theorem onFault_inv {c : Cmd} {s : State} (hs : Sound s) (hr : Ready c s) (e : Raise) : (onFault e s).Inv := by
  have hrec : Sound (recordFault e s) := hs.of_stores_eq (recordFault_stores e s)
  rcases onFault_cases e s with ⟨_, h⟩ | ⟨_, _, h⟩ | ⟨⟨hop, _⟩, hmore, h⟩ <;> rw [h]
  · exact hs.finish_inv (recordFault_stores e s) _
  · exact hs.finish_inv (recordFault_stores e s) _
  · have hagain : Ready .getStatus { recordFault e s with startupN := s.startupN + 1 } :=
      { paired := ⟨.startup, by simp [hop], by simp [hr.stage_of_startup hop, stageCmd]⟩
        tries := fun _ => by simpa using within_succ hmore }
    have hsound : Sound { recordFault e s with startupN := s.startupN + 1 } :=
      { hrec with startupN := Nat.le_add_left 1 s.startupN }
    have hframe : assemble (recordFault e s).cfg .getStatus Args.empty =
        .ok (some (frameOf s.cfg (0x31 :: statusRequestData false))) := by
      rw [recordFault_cfg]
      rfl
    exact hsound.sendFrame_inv hagain hframe (recordFault e s).reqTmo

/-! ### The small steps of a transaction -/

/-- The fields `Busy` reads. -/
def State.transaction (s : State) :
    Config × BitVec 4 × Stage × Cmd × Memory × Nat × (BitVec 4 × Byte × Byte) × Nat × Nat :=
  (s.cfg, s.op, s.stage, s.curCmd, s.txBuf, s.txLen, (s.faultCode, s.faultExp, s.faultAct), s.attempt, s.startupN)

/-- What leaves these fields alone keeps a transaction running. -/
theorem Busy.of_transaction_eq {s t : State} (h : Busy s) (e : t.transaction = s.transaction) : Busy t := by
  simp only [State.transaction, Prod.mk.injEq] at e
  obtain ⟨hcfg, hop, hst, hcmd, htx, htl, ⟨hfc, hfe, hfa⟩, hat, hsn⟩ := e
  obtain ⟨h1, h2, h3, h4, h5⟩ := h
  constructor <;> simpa only [hcfg, hop, hst, hcmd, htx, htl, hfc, hfe, hfa, hat, hsn]

/-- The transport's move is none of the engine's (R56). -/
theorem deliver_inv {s : State} (h : s.Inv) : (deliver s).Inv := by
  obtain ⟨hs, hb, ha, hr⟩ := (inv_iff s).1 h
  refine (inv_iff _).2 ⟨hs.of_stores_eq (deliver_stores s), fun hp => ?_, by simpa using ha, by simpa using hr⟩
  exact (hb (by simpa using hp)).of_transaction_eq (by simp [State.transaction])

/-- Consuming an answer changes nothing the invariant speaks of (R56). -/
theorem takeAnswer_inv {s : State} (h : s.Inv) (a : Option Byte) (q : List (Option Byte)) : (takeAnswer a q s).Inv := by
  obtain ⟨hs, hb, ha, hr⟩ := (inv_iff s).1 h
  exact (inv_iff _).2 ⟨hs.of_stores_eq rfl, fun hp => (hb hp).of_transaction_eq rfl, ha, hr⟩

/-- `Continue` keeps the invariant: a second stage has a command, and is not STARTUP's (R212). -/
theorem continueOp_inv {r : Reply} {s t : State} (hs : Sound s) (e : continueOp r s = .next t) : t.Inv := by
  rcases continueOp_cases r s with h | ⟨ns, x, h⟩ | ⟨g, c, f, hop, hg, ha, h⟩ <;> rw [h] at e <;> cases e
  · exact hs.finish_inv (notifyAll_stores ns s) x
  · subst hg
    obtain ⟨o, ho, hc, hne⟩ : ∃ o, hostOpOf s.op = some o ∧ stageCmd o .second = some c ∧ o ≠ .startup := by
      rcases hop with ⟨rfl, o, ho, rfl | rfl | rfl⟩ | ⟨rfl, ho⟩ <;> exact ⟨_, ho, rfl, by simp⟩
    have hr : Ready c { s with stage := .second } :=
      { paired := ⟨o, ho, hc⟩
        tries := fun (hst : s.op = hostOpCode .startup) => by
          rw [hst, hostOpOf_hostOpCode] at ho
          exact absurd (Option.some.inj ho).symm hne }
    exact Sound.sendFrame_inv (u := { s with stage := .second }) (hs.of_stores_eq rfl) hr ha s.reqTmo

/-- `Complete` keeps the invariant, by the fault handler or by `Continue` (R189). -/
theorem complete_inv {c : Cmd} {s t : State} (hs : Sound s) (hr : Ready c s) (e : complete s = .next t) : t.Inv := by
  rcases complete_cases s with ⟨_, h⟩ | ⟨_, x, _, h⟩ | ⟨_, r, _, h⟩ <;> rw [h] at e
  · cases e
  · cases e
    exact onFault_inv hs hr x
  · exact continueOp_inv (hs.of_stores_eq (updateFor_stores r s)) e

/-- `NoResponse` keeps the invariant, by the fault handler or by a resend within the bound (R185, R186). -/
theorem noResponse_inv {s t : State} (hs : Sound s) (hb : Busy s) (e : noResponse s = .next t) : t.Inv := by
  rcases noResponse_cases s with ⟨_, h⟩ | ⟨_, _, h⟩ | ⟨hmore, _, h⟩ <;> rw [h] at e <;> cases e
  · exact onFault_inv hs hb.ready _
  · refine Sound.inv_of_ackWait ?_ ⟨hb.paired, hb.framed, hb.noFault, within_succ hmore, hb.tries⟩ rfl
      ⟨rfl, Nat.zero_lt_succ _⟩
    exact { hs with rxLen := Nat.zero_le _, attempt := Nat.le_add_left 1 s.attempt }

/-- The ACK byte opens a body that holds nothing else (R51, R184). -/
theorem ackSeen_inv {s t : State} (hs : Sound s) (hb : Busy s) (e : ackSeen s = .next t) : t.Inv := by
  obtain ⟨_, _, hfloor⟩ := bounds_of_valid hs.config
  have hone : 1 < s.cfg.rxBufLen := Nat.lt_of_lt_of_le (by decide) hfloor
  rw [ackSeen, if_pos (Nat.zero_lt_of_lt hone)] at e
  cases e
  refine (inv_iff _).2 ⟨?_, fun _ => hb.of_transaction_eq rfl, fun hp => by simp at hp,
    fun _ => ⟨Nat.le_refl 1, hone, Memory.read_write_same _ _ _ hs.rxForm, fun a h1 h2 => absurd h2 (Nat.not_lt.2 h1)⟩⟩
  exact { hs with
    rxForm := Memory.wf_write _ _ hs.rxForm
    rxSpace := fun c hc => (Memory.mem_write hc).elim (hs.rxSpace c) (fun h0 => h0 ▸ Nat.zero_lt_of_lt hone)
    rxLen := hone.le }

/-- A byte that does not end the frame is accumulated after the ACK, and is no ETX (R187). -/
theorem storeRx_inv {s : State} {b : Byte} (h : s.Inv) (hp : s.phase = .body) (hroom : s.rxLen + 1 < s.cfg.rxBufLen)
    (hne : b ≠ Const.etx) : (storeRx b s).Inv := by
  obtain ⟨hs, hb, _, hr⟩ := (inv_iff s).1 h
  obtain ⟨h1, _, hack, hetx⟩ := hr hp
  refine (inv_iff _).2 ⟨hs.storeRx b (by omega), fun _ => (hb (by simp [hp])).of_transaction_eq rfl,
    fun ha => by simp [hp] at ha, fun _ => ⟨Nat.le_add_left 1 s.rxLen, hroom, ?_, fun a ha1 ha2 => ?_⟩⟩
  · rw [storeRx_rxBuf, Memory.read_write_other _ _ _ _ (by omega), hack]
  · rw [storeRx_rxLen] at ha2
    rw [storeRx_rxBuf]
    by_cases ha : a = s.rxLen
    · rw [ha, Memory.read_write_same _ _ _ hs.rxForm]
      exact hne
    · rw [Memory.read_write_other _ _ _ _ ha]
      exact hetx a ha1 (by omega)

/-- An answer in the acknowledgment wait keeps the invariant (R182 to R186). -/
theorem onAckAnswer_inv {a : Option Byte} {s t : State} (h : s.Inv) (hp : s.phase = .ackWait)
    (e : onAckAnswer a s = .next t) : t.Inv := by
  have hb : Busy s := h.busy (by simp [hp])
  rcases onAckAnswer_cases a s with ⟨_, hc⟩ | ⟨_, hc⟩ | ⟨b, _, _, hw, hc⟩ | ⟨b, _, _, _, hc⟩ <;> rw [hc] at e
  · exact noResponse_inv h.sound hb e
  · exact ackSeen_inv h.sound hb e
  · cases e
    exact Sound.inv_of_ackWait (h.sound.of_stores_eq rfl) (hb.of_transaction_eq rfl) hp ⟨(h.ackWait hp).1, hw⟩
  · exact noResponse_inv (s := { s with win := s.win + 1 }) (h.sound.of_stores_eq rfl) (hb.of_transaction_eq rfl) e

/-- An answer in the body keeps the invariant (R187, R188). -/
theorem onBodyAnswer_inv {a : Option Byte} {s t : State} (h : s.Inv) (hp : s.phase = .body)
    (e : onBodyAnswer a s = .next t) : t.Inv := by
  have hr : Ready s.curCmd s := (h.busy (by simp [hp])).ready
  rcases onBodyAnswer_cases a s with ⟨_, hc⟩ | ⟨b, _, _, hc⟩ | ⟨b, _, hl, _, hc⟩ | ⟨b, _, hl, hne, hc⟩ <;> rw [hc] at e
  · exact complete_inv h.sound hr e
  · cases e
  · exact complete_inv (h.sound.storeRx b hl) (c := s.curCmd) ⟨hr.paired, hr.tries⟩ e
  · cases e
    exact storeRx_inv h hp hl hne

/-! ### The step -/

/-- Reset keeps the configuration and the host's records, and everything else at the values of R35. -/
theorem applyReset_inv {s : State} (h : Sound s) : (applyReset s).Inv :=
  Sound.inv_of_idle
    { config := h.config, records := h.records, txForm := rfl, rxForm := rfl, txSpace := by simp [State.reset]
      rxSpace := by simp [State.reset], txLen := Nat.zero_le _, rxLen := Nat.zero_le _
      attempt := Nat.le_refl 1, startupN := Nat.le_refl 1 } rfl

/-- Settles O58, by the event the step takes. -/
theorem stepKeepsTheInvariant : Obligations.StepKeepsTheInvariant := by
  intro s t hinv h
  have hs := hinv.sound
  cases step_takes h with
  | reset _ e => exact e ▸ applyReset_inv hs
  | nothing _ _ _ e => exact e ▸ hinv
  | record _ hc e => exact exec_inv (hs.takeRecord hc) (fun _ _ hf => entry_ready_of_record hs.config hf) e
  | @issued _ i e =>
    exact exec_inv (hs.of_stores_eq (takeIssue_stores i s)) (fun _ _ hf => entry_ready_of_issue hs.config hf) e
  | delivery _ e => exact e ▸ deliver_inv hinv
  | @ackAnswer hp a q e => exact onAckAnswer_inv (takeAnswer_inv hinv a q) hp e
  | @bodyAnswer hp a q e => exact onBodyAnswer_inv (takeAnswer_inv hinv a q) hp e

end Sys2Proof.Machine
end

section
/-! SUPPORT. How the engine goes on after the event of a step: it prepares, and then ends the operation or sends the first
frame of a transaction. What that leaves unchanged is said once, and the frames of instructions and steps follow from it. -/

namespace Sys2Proof.Machine

/-! ### What stays unchanged while the engine goes on -/

/-- What only the host, the transport and reset write: the configuration and the inputs. -/
def State.inputs (s : State) : Config × List HostRecord × List (Option Byte) × Feed × Bool × Option (List Byte) :=
  (s.cfg, s.cmd, s.rxs, s.rxMore, s.resetIn, s.issue)

/-- The registers and the buffer of the transmission (R25, R28). -/
def State.transmission (s : State) : Memory × Nat × Nat × Cmd × Nat × Nat :=
  (s.txBuf, s.txLen, s.rxLen, s.curCmd, s.attempt, s.win)

@[simp] theorem takeRecord_genRegs (r : HostRecord) (q : List HostRecord) (s : State) :
    (takeRecord r q s).genRegs = s.genRegs := rfl
@[simp] theorem takeIssue_genRegs (i : Instr) (s : State) : (takeIssue i s).genRegs = s.genRegs := by cases i <;> rfl
@[simp] theorem takeIssue_cfg (i : Instr) (s : State) : (takeIssue i s).cfg = s.cfg := by cases i <;> rfl
@[simp] theorem deliver_genRegs (s : State) : (deliver s).genRegs = s.genRegs := by simp [State.genRegs]
@[simp] theorem updateRuntime_inputs (x : StatusResponse) (s : State) : (updateRuntime x s).inputs = s.inputs := by
  simp [State.inputs]

@[simp] theorem takeRecord_frames (r : HostRecord) (q : List HostRecord) (s : State) :
    (takeRecord r q s).frames = s.frames := by simp [State.frames]
@[simp] theorem takeIssue_frames (i : Instr) (s : State) : (takeIssue i s).frames = s.frames := by simp [State.frames]
@[simp] theorem takeAnswer_frames (a : Option Byte) (q : List (Option Byte)) (s : State) :
    (takeAnswer a q s).frames = s.frames := by simp [State.frames]
@[simp] theorem updateRuntime_frames (x : StatusResponse) (s : State) : (updateRuntime x s).frames = s.frames := by
  simp [State.frames]

/-- What the engine leaves alone until it ends an operation or sends a frame. -/
def State.kept (s : State) := (s.inputs, s.genRegs, s.rxBuf, s.transmission)

@[simp] theorem recordFault_kept (e : Raise) (s : State) : (recordFault e s).kept = s.kept := by cases e <;> rfl
@[simp] theorem entry_kept (i : Instr) (s : State) : (entry i s).kept = s.kept := by cases i <;> rfl

/-- From `s` to `u` the engine did no more than write the registers of the operation and of faults, and notify. -/
structure Prepares (s u : State) : Prop where
  kept : u.kept = s.kept
  log : ∃ ns : List Notification, u.log = s.log ++ ns.map .note

/-- The engine goes on from `s`: it ends the operation without a frame, or begins a transaction with the given one. -/
inductive Proceeds (s : State) : Option (List Byte) → State → Prop
  | ends {u : State} (h : Prepares s u) (r : Result) : Proceeds s none (finish r u)
  | sends {u : State} (h : Prepares s u) (c : Cmd) (f : List Byte) (q : BitVec 7) :
      Proceeds s (some f) { sendFrame c f u with reqTmo := q }

/-- Since `s` nothing but the engine's own state changed, and the log grew by actions that are no read. -/
structure Keeps (s t : State) : Prop where
  inputs : t.inputs = s.inputs
  log : ∃ l, t.log = s.log ++ l ∧ ∀ x ∈ l, isRead x = false

/-- The phase R27 allows after the end of an operation or of a transaction: no body, the acknowledgment wait with one frame
more, or idle with none. -/
def Leaves (s t : State) : Prop :=
  t.phase ≠ .body ∧ (t.phase = .ackWait → ∃ f, t.frames = s.frames ++ [f]) ∧ (t.phase = .idle → t.frames = s.frames)

section
variable {s t u : State} {o : Option (List Byte)}

/-- Registers of the operation and of faults may be written without a notification. -/
theorem Prepares.of_eq (hk : u.kept = s.kept) (hl : u.log = s.log) : Prepares s u := ⟨hk, [], by simp [hl]⟩

theorem Prepares.clearFault (h : Prepares s u) : Prepares s (clearFault u) := ⟨h.kept, h.log⟩

theorem Prepares.recordFault (h : Prepares s u) (e : Raise) : Prepares s (recordFault e u) :=
  ⟨(recordFault_kept e u).trans h.kept, by simpa using h.log⟩

theorem Prepares.notifyAll (h : Prepares s u) (ns : List Notification) : Prepares s (notifyAll ns u) := by
  obtain ⟨ms, hl⟩ := h.log
  exact ⟨by rw [notifyAll_eq]; exact h.kept, ms ++ ns, by simp [hl]⟩

/-- An instruction's entry writes registers of the operation alone (R210). -/
theorem prepares_entry (i : Instr) (s : State) : Prepares s (entry i s) := .of_eq (entry_kept i s) (entry_log i s)

/-- A frame sent without a timeout to keep. -/
theorem Proceeds.sendFrame (h : Prepares s u) (c : Cmd) (f : List Byte) : Proceeds s (some f) (sendFrame c f u) :=
  .sends h c f u.reqTmo

/-- What the preparation leaves alone, part by part. -/
theorem Prepares.parts (h : Prepares s u) :
    u.inputs = s.inputs ∧ u.genRegs = s.genRegs ∧ u.rxBuf = s.rxBuf ∧ u.transmission = s.transmission := by
  simpa only [State.kept, Prod.mk.injEq] using h.kept

/-- The inputs, the general registers (R24) and `rx_buf` stay, with a frame and without one. -/
theorem Proceeds.unchanged (h : Proceeds s o t) :
    t.inputs = s.inputs ∧ t.genRegs = s.genRegs ∧ t.rxBuf = s.rxBuf := by
  cases h with
  | ends h | sends h =>
    obtain ⟨hi, hg, hr, _⟩ := h.parts
    exact ⟨hi, hg, hr⟩

/-- Without a frame the transmission stays as it was. -/
theorem Proceeds.transmission (h : Proceeds s none t) : t.transmission = s.transmission := by
  cases h with
  | ends h =>
    obtain ⟨_, _, _, ht⟩ := h.parts
    exact ht

/-- The engine goes on without a read (R26). -/
theorem Proceeds.keeps (h : Proceeds s o t) : Keeps s t := by
  refine ⟨h.unchanged.1, ?_⟩
  cases h with
  | ends h r =>
    obtain ⟨ns, hl⟩ := h.log
    exact ⟨ns.map .note ++ [.result r], by simp [hl], by simp [isRead, or_imp, forall_and]⟩
  | sends h c f =>
    obtain ⟨ns, hl⟩ := h.log
    exact ⟨ns.map .note ++ [.txWrite f], by simp [hl], by simp [isRead, or_imp, forall_and]⟩

/-- The frame is written once, and nothing else is (R181). -/
theorem Proceeds.frames (h : Proceeds s o t) : t.frames = s.frames ++ o.toList := by
  cases h with
  | ends h | sends h =>
    obtain ⟨ns, hl⟩ := h.log
    simp [State.frames, hl, List.filterMap_map]

/-- `Leaves` looks back at the frames alone. -/
theorem Leaves.of_frames_eq (h : Leaves u t) (e : u.frames = s.frames) : Leaves s t := by rwa [Leaves, e] at h

/-- The engine goes on to the acknowledgment wait with a frame, and to idle without one (R27). -/
theorem Proceeds.leaves (h : Proceeds s o t) : Leaves s t := by
  have hf := h.frames
  cases h with
  | ends h r => exact ⟨by simp, by simp, fun _ => by simpa using hf⟩
  | sends h c f q => exact ⟨by simp, fun _ => ⟨f, hf⟩, by simp⟩

/-- The transmission, part by part. -/
theorem transmission_eq_iff : t.transmission = s.transmission ↔
    t.txBuf = s.txBuf ∧ t.txLen = s.txLen ∧ t.rxLen = s.rxLen ∧ t.curCmd = s.curCmd ∧ t.attempt = s.attempt ∧
      t.win = s.win := by
  simp only [State.transmission, Prod.mk.injEq]

/-- The bytes of `tx_buf` past the frame stay (R28). -/
theorem Proceeds.txBuf_read (h : Proceeds s o t) {a : Nat} (ha : ∀ f, o = some f → f.length ≤ a) :
    t.txBuf.read a = s.txBuf.read a := by
  cases h with
  | ends h r => rw [(transmission_eq_iff.1 (Proceeds.ends h r).transmission).1]
  | @sends u h c f q =>
    obtain ⟨_, _, _, ht⟩ := h.parts
    have hlen : f.length ≤ a := ha f rfl
    rw [sendFrame_txBuf, Memory.read_writeSeq_other _ _ _ _ (by omega), (transmission_eq_iff.1 ht).1]

end

/-! ### Instructions -/

/-- The frame an instruction sends is the one assembled for its first command (R101, R141). -/
theorem frameSent_eq_some {c : Config} {i : Instr} {f : List Byte} :
    frameSent c i = some f ↔ ∃ cmd a, firstCmd i = some (cmd, a) ∧ assemble c cmd a = .ok (some f) := by
  unfold frameSent
  cases hf : firstCmd i with
  | none => simp
  | some p =>
    obtain ⟨cmd, a⟩ := p
    rcases assemble_cases c cmd a with ⟨d, _, _, h⟩ | ⟨_, h⟩ | ⟨_, v, h⟩ <;> simp [h]

/-- Every instruction but SET_TMO and the unassigned codes is its first command, begun after its entry (R101). -/
theorem exec_eq_issueXact {i : Instr} {c : Cmd} {a : Args} (hf : firstCmd i = some (c, a))
    (hi : ∀ v, i ≠ .opSetTmo v) (s : State) : exec i s = issueXact c a (entry i s) := by
  cases i with
  | opSetTmo v => exact absurd rfl (hi v)
  | opUnsupported code => cases hf
  | _ =>
    cases hf
    rfl

/-- A wire command whose frame assembles sends it (R181). -/
theorem issueXact_of_ok {c : Cmd} {a : Args} {u : State} {f : List Byte} (h : assemble u.cfg c a = .ok (some f)) :
    issueXact c a u = .next (sendFrame c f (clearFault u)) := by
  rw [issueXact, startXact_of_ok h]

/-- An instruction that has a frame to send sends it (R181); only SET_TMO keeps an operand of its own then (R224). -/
theorem exec_sends {i : Instr} {s : State} {f : List Byte} (h : frameSent s.cfg i = some f) :
    ∃ c q, exec i s = .next { sendFrame c f (clearFault (entry i s)) with reqTmo := q } := by
  obtain ⟨c, a, hf, ha⟩ := frameSent_eq_some.1 h
  by_cases hi : ∀ v, i ≠ .opSetTmo v
  · refine ⟨c, (entry i s).reqTmo, ?_⟩
    rw [exec_eq_issueXact hf hi]
    exact issueXact_of_ok ((entry_cfg i s).symm ▸ ha)
  · obtain ⟨v, rfl⟩ := not_forall_not.1 hi
    cases hf
    rcases execOpSetTmo_cases v s with ⟨g, hg, e⟩ | ⟨hg, _⟩ <;> rw [hg] at ha <;> cases ha
    exact ⟨_, _, e⟩

/-- A transaction that cannot be begun ends its operation, with a rejection or E_RANGE (R164, R264). -/
theorem Opens.ends {c : Cmd} {a : Args} {s u t : State} {x : Out} (h : Opens c a u x) (hu : Prepares s u)
    (hn : ∀ f, assemble u.cfg c a ≠ .ok (some f)) (e : x = .next t) : Proceeds s none t := by
  cases h <;> cases e
  case sent f q ha => exact absurd ha (hn f)
  case rejected v => exact .ends (hu.clearFault.notifyAll [.tmoRange v]) _
  case outOfRange v => exact .ends (hu.clearFault.recordFault _) _

/-- Everything an instruction does: it sends its frame if it has one, and ends otherwise. -/
theorem exec_proceeds {i : Instr} {s t : State} (e : exec i s = .next t) : Proceeds s (frameSent s.cfg i) t := by
  cases hf : frameSent s.cfg i with
  | some f =>
    obtain ⟨c, q, h⟩ := exec_sends hf
    rw [h] at e
    cases e
    exact .sends (prepares_entry i s).clearFault c f q
  | none =>
    rcases exec_cases i s with ⟨c, a, hc, h⟩ | ⟨code, _, h⟩
    · refine h.ends (prepares_entry i s) (fun f ha => ?_) e
      rw [entry_cfg] at ha
      simp [frameSent_eq_some.2 ⟨c, a, hc, ha⟩] at hf
    · rw [h] at e
      cases e
      exact .ends ((prepares_entry (.opUnsupported code) s).recordFault _) _

/-- The start of a transaction writes no attempt count of STARTUP. -/
theorem Opens.startupN {c : Cmd} {a : Args} {u t : State} {x : Out} (h : Opens c a u x) (e : x = .next t) :
    t.startupN = u.startupN := by
  cases h <;> cases e <;> simp

/-- Only STARTUP writes its attempt count (R226). -/
theorem exec_startupN {i : Instr} {s t : State} (hi : i ≠ .opStartup) (e : exec i s = .next t) :
    t.startupN = s.startupN := by
  rcases exec_cases i s with ⟨c, a, _, h⟩ | ⟨code, _, h⟩
  · have hentry : (entry i s).startupN = s.startupN := by
      cases i with
      | opStartup => exact absurd rfl hi
      | _ => rfl
    exact (h.startupN e).trans hentry
  · rw [h] at e
    cases e
    simp

/-- A wire command leaves the requested timeout alone. -/
theorem issueXact_reqTmo {c : Cmd} {a : Args} {u t : State} (e : issueXact c a u = .next t) : t.reqTmo = u.reqTmo := by
  rcases issueXact_cases c a u with ⟨f, _, h⟩ | ⟨_, _, h⟩ | ⟨_, v, _, h⟩ <;> rw [h] at e <;> cases e <;> simp

/-- Only SET_TMO writes the requested timeout (R224). -/
theorem exec_reqTmo {i : Instr} {s t : State} (hi : ∀ v, i ≠ .opSetTmo v) (e : exec i s = .next t) :
    t.reqTmo = s.reqTmo := by
  rcases exec_cases i s with ⟨c, a, hf, _⟩ | ⟨code, _, h⟩
  · rw [exec_eq_issueXact hf hi] at e
    exact (issueXact_reqTmo e).trans (by cases i <;> rfl)
  · rw [h] at e
    cases e
    simp

/-- Settles O27: an instruction proceeds, and the two registers of operations have one writer each. -/
theorem execChangesOnlyItsOwnState : Obligations.ExecChangesOnlyItsOwnState := by
  intro i s t e
  have h := exec_proceeds e
  obtain ⟨hin, hgen, hrx⟩ := h.unchanged
  simp only [State.inputs, Prod.mk.injEq] at hin
  obtain ⟨hcfg, hcmd, hrxs, hmore, hreset, hissue⟩ := hin
  obtain ⟨l, hl, _⟩ := h.keeps.log
  refine ⟨hcfg, hgen, hrx, hcmd, hrxs, hmore, hreset, hissue, ⟨l, hl⟩, fun _ ha => h.txBuf_read ha,
    fun hi => exec_startupN hi e, fun hi => exec_reqTmo hi e, fun hn => ?_⟩
  rw [hn] at h
  exact transmission_eq_iff.1 h.transmission

/-- Settles O28: the frame sent fits `tx_buf`, and reads back as written. -/
theorem execStoresAndWritesItsFrame : Obligations.ExecStoresAndWritesItsFrame := by
  intro i s f hwf hf
  obtain ⟨c, q, e⟩ := exec_sends hf
  obtain ⟨cmd, a, _, ha⟩ := frameSent_eq_some.1 hf
  have htx : (entry i s).txBuf = s.txBuf := by cases i <;> rfl
  have hframe : frameIn 18 (s.txBuf.writeSeq 0 f) f.length = some f := by
    rw [frameIn_of_le _ (assemble_length_le ha), Memory.readSeq_writeSeq _ _ _ hwf]
  exact ⟨_, e, by simpa [htx] using hframe, by simp, rfl, rfl, rfl, rfl, rfl, rfl, rfl⟩

/-! ### What follows an answer -/

/-- The fault handler ends the operation, or goes on with STARTUP's next frame (R266, R226). -/
theorem onFault_proceeds (e : Raise) (s : State) : ∃ o, Proceeds s o (onFault e s) := by
  have hrec : Prepares s (recordFault e s) := Prepares.recordFault (.of_eq rfl rfl) e
  rcases onFault_cases e s with ⟨_, h⟩ | ⟨_, _, h⟩ | ⟨_, _, h⟩ <;> rw [h]
  · exact ⟨_, .ends hrec _⟩
  · exact ⟨_, .ends hrec _⟩
  · have hcount : Prepares s { recordFault e s with startupN := s.startupN + 1 } := ⟨hrec.kept, hrec.log⟩
    exact ⟨_, .sendFrame hcount.clearFault _ _⟩

/-- STARTUP ends by a tolerated fault only when its attempts are used up (R226, R227). -/
theorem reached_of_onFault_idle {e : Raise} {s : State} (ht : tolerated e = true) (ho : s.op = hostOpCode .startup)
    (hp : (onFault e s).phase = .idle) : reached s.cfg.startupMaxAttempts s.startupN = true := by
  rcases onFault_cases e s with ⟨hn, _⟩ | ⟨_, hr, _⟩ | ⟨_, _, h⟩
  · exact absurd ⟨ho, ht⟩ hn
  · exact hr
  · simp [h] at hp

/-- `Continue` ends the operation after its notifications, or sends the next command's frame (R212). -/
theorem continueOp_proceeds {r : Reply} {s t : State} (e : continueOp r s = .next t) : ∃ o, Proceeds s o t := by
  rcases continueOp_cases r s with h | ⟨ns, x, h⟩ | ⟨g, c, f, _, _, _, h⟩ <;> rw [h] at e <;> cases e
  · exact ⟨_, .ends (Prepares.notifyAll (.of_eq rfl rfl) ns) x⟩
  · have hstage : Prepares s { s with stage := g } := .of_eq rfl rfl
    exact ⟨_, .sendFrame hstage.clearFault c f⟩

/-- The ways a completed transaction goes on (R189): a status response updates the general registers first, any other reply and
a fault write none. -/
inductive Completes (s t : State) : Prop
  | plain {o : Option (List Byte)} (h : Proceeds s o t)
  | status {o : Option (List Byte)} {x : StatusResponse}
      (hx : parse s.cfg s.curCmd (s.rxBuf.readSeq 0 s.rxLen) = .ok (.status x)) (h : Proceeds (updateRuntime x s) o t)

/-- Everything `Complete` does when it gives a next state (R189). -/
theorem complete_completes {s t : State} (e : complete s = .next t) : Completes s t := by
  rcases complete_cases s with ⟨_, h⟩ | ⟨_, x, _, h⟩ | ⟨_, r, hr, h⟩ <;> rw [h] at e
  · cases e
  · cases e
    obtain ⟨o, ho⟩ := onFault_proceeds x s
    exact .plain ho
  · obtain ⟨o, ho⟩ := continueOp_proceeds e
    cases r with
    | status x => exact .status hr ho
    | timeout v => exact .plain ho
    | nothing => exact .plain ho

section
variable {s t u : State}

/-- A completed transaction reads no answer (R26). -/
theorem Completes.keeps (h : Completes s t) : Keeps s t := by
  cases h with
  | plain h => exact h.keeps
  | @status o x _ h =>
    obtain ⟨hi, hl⟩ := h.keeps
    exact ⟨hi.trans (updateRuntime_inputs x s), by simpa using hl⟩

/-- A completed transaction leaves the body (R27). -/
theorem Completes.leaves (h : Completes s t) : Leaves s t := by
  cases h with
  | plain h => exact h.leaves
  | @status o x _ h => exact h.leaves.of_frames_eq (updateRuntime_frames x s)

/-- A completed transaction writes a general register only for a status response (R24, R190). -/
theorem Completes.genRegs (h : Completes s t) : t.genRegs = s.genRegs ∨
    ∃ x, parse s.cfg s.curCmd (s.rxBuf.readSeq 0 s.rxLen) = .ok (.status x) ∧
      t.genRegs = (updateRuntime x s).genRegs := by
  cases h with
  | plain h =>
    obtain ⟨_, hg, _⟩ := h.unchanged
    exact .inl hg
  | status hx h =>
    obtain ⟨_, hg, _⟩ := h.unchanged
    exact .inr ⟨_, hx, hg⟩

/-- The wait for an acknowledgment may be given up: the sends are used up, and under STARTUP its attempts too (R186, R226). -/
def GivenUp (s : State) : Prop :=
  reached s.cfg.maxSendAttempts s.attempt = true ∧
    (s.op = hostOpCode .startup → reached s.cfg.startupMaxAttempts s.startupN = true)

/-- `NoResponse` reads no answer, and writes no general register. -/
theorem noResponse_keeps (e : noResponse s = .next t) : Keeps s t ∧ t.genRegs = s.genRegs := by
  rcases noResponse_cases s with ⟨_, h⟩ | ⟨_, _, h⟩ | ⟨_, _, h⟩ <;> rw [h] at e <;> cases e
  · obtain ⟨o, ho⟩ := onFault_proceeds (.noResponse s.attempt) s
    obtain ⟨_, hg, _⟩ := ho.unchanged
    exact ⟨ho.keeps, hg⟩
  · exact ⟨⟨rfl, [.txWrite _], rfl, by simp [isRead]⟩, rfl⟩

/-- `NoResponse` stays in the acknowledgment wait, or gives up (R185, R186). -/
theorem noResponse_phase (e : noResponse s = .next t) : t.phase ≠ .body ∧ (t.phase = .idle → GivenUp s) := by
  rcases noResponse_cases s with ⟨hr, h⟩ | ⟨_, _, h⟩ | ⟨_, _, h⟩ <;> rw [h] at e <;> cases e
  · obtain ⟨o, ho⟩ := onFault_proceeds (.noResponse s.attempt) s
    exact ⟨ho.leaves.1, fun hp => ⟨hr, fun hop => reached_of_onFault_idle rfl hop hp⟩⟩
  · simp

/-- The ACK byte opens the body (R184). -/
theorem ackSeen_next (e : ackSeen s = .next t) :
    t = { s with rxBuf := s.rxBuf.write 0 Const.ack, rxLen := 1, phase := .body } := by
  rw [ackSeen] at e
  split at e <;> cases e
  rfl

/-- An answer in the acknowledgment wait is the only one read, and writes no general register (R182 to R186). -/
theorem onAckAnswer_keeps {a : Option Byte} (e : onAckAnswer a s = .next t) : Keeps s t ∧ t.genRegs = s.genRegs := by
  rcases onAckAnswer_cases a s with ⟨_, h⟩ | ⟨_, h⟩ | ⟨b, _, _, _, h⟩ | ⟨b, _, _, _, h⟩ <;> rw [h] at e
  · exact noResponse_keeps e
  · rw [ackSeen_next e]
    exact ⟨⟨rfl, [], by simp, by simp⟩, rfl⟩
  · cases e
    exact ⟨⟨rfl, [], by simp, by simp⟩, rfl⟩
  · obtain ⟨⟨hi, hl⟩, hg⟩ := noResponse_keeps e
    exact ⟨⟨hi, hl⟩, hg⟩

/-- The row ACKWAIT of R27: ACK alone opens the body, and only a no-response that is given up ends the operation. -/
theorem onAckAnswer_phase {a : Option Byte} (hp : s.phase = .ackWait) (e : onAckAnswer a s = .next t) :
    (t.phase = .body ↔ a = some Const.ack) ∧
      (t.phase = .idle → (a ≠ none → Const.ackWindow ≤ s.win + 1) ∧ GivenUp s) := by
  rcases onAckAnswer_cases a s with ⟨rfl, h⟩ | ⟨rfl, h⟩ | ⟨b, rfl, hb, _, h⟩ | ⟨b, rfl, hb, hw, h⟩ <;> rw [h] at e
  · obtain ⟨hbody, hidle⟩ := noResponse_phase e
    exact ⟨iff_of_false hbody (by simp), fun hi => ⟨by simp, hidle hi⟩⟩
  · simp [ackSeen_next e]
  · cases e
    exact ⟨iff_of_false (by simp [hp]) (by simpa using hb), by simp [hp]⟩
  · obtain ⟨hbody, hidle⟩ := noResponse_phase e
    exact ⟨iff_of_false hbody (by simpa using hb), fun hi => ⟨fun _ => hw, hidle hi⟩⟩

/-- The ways an answer in the body goes on (R187, R188): a byte that does not end the frame is stored, or the frame ends, with a
last byte stored or by a timeout, and the transaction completes. -/
inductive BodyAnswer (s t : State) : Option Byte → Prop
  | stored {b : Byte} (hroom : s.rxLen + 1 < s.cfg.rxBufLen) (hb : b ≠ Const.etx) (e : t = storeRx b s) :
      BodyAnswer s t (some b)
  | last {b : Byte} (hb : b = Const.etx ∨ s.rxLen + 1 = s.cfg.rxBufLen) (h : Completes (storeRx b s) t) :
      BodyAnswer s t (some b)
  | timeout (h : Completes s t) : BodyAnswer s t none

/-- Everything an answer in the body does when it gives a next state. -/
theorem onBodyAnswer_next {a : Option Byte} (e : onBodyAnswer a s = .next t) : BodyAnswer s t a := by
  rcases onBodyAnswer_cases a s with ⟨rfl, h⟩ | ⟨b, _, _, h⟩ | ⟨b, rfl, _, hb, h⟩ | ⟨b, rfl, hl, hb, h⟩ <;> rw [h] at e
  · exact .timeout (complete_completes e)
  · cases e
  · exact .last hb (complete_completes e)
  · cases e
    exact .stored hl hb rfl

/-- An answer in the body is the only one read. -/
theorem BodyAnswer.keeps {a : Option Byte} (h : BodyAnswer s t a) : Keeps s t := by
  cases h with
  | stored _ _ e => exact e ▸ ⟨rfl, [], by simp, by simp⟩
  | last _ h => exact ⟨h.keeps.inputs, h.keeps.log⟩
  | timeout h => exact h.keeps

/-- The row BODY of R27: the body is left exactly where the frame ends. -/
theorem BodyAnswer.phase {a : Option Byte} (h : BodyAnswer s t a) (hp : s.phase = .body) :
    (t.phase ≠ .body ↔ a = none ∨ a = some Const.etx ∨ s.rxLen + 1 = s.cfg.rxBufLen) ∧
      (t.phase ≠ .body → Leaves s t) := by
  cases h with
  | stored hroom hb e =>
    have hstay : t.phase = .body := by simp [e, hp]
    exact ⟨iff_of_false (by simp [hstay]) (by simpa [Nat.ne_of_lt hroom] using hb), fun hn => absurd hstay hn⟩
  | @last b hb h => exact ⟨iff_of_true h.leaves.1 (by simpa using hb), fun _ => h.leaves⟩
  | timeout h => exact ⟨iff_of_true h.leaves.1 (.inl rfl), fun _ => h.leaves⟩

end

/-! ### The step -/

section
variable {s t : State} {a : Option Byte} {q : List (Option Byte)}

theorem step_of_idle (hr : s.resetIn = false) (hp : s.phase = .idle) : step s = stepIdle s := by simp [step, hr, hp]

theorem step_of_ackWait (hr : s.resetIn = false) (hp : s.phase = .ackWait) (hq : s.rxs = a :: q) :
    step s = onAckAnswer a (takeAnswer a q s) := by simp [step, hr, hp, onRead, hq]

theorem step_of_body (hr : s.resetIn = false) (hp : s.phase = .body) (hq : s.rxs = a :: q) :
    step s = onBodyAnswer a (takeAnswer a q s) := by simp [step, hr, hp, onRead, hq]

/-- A suspended engine without an answer leaves the step to the transport (R56; log entry 23). -/
theorem step_of_no_answer (hr : s.resetIn = false) (hp : s.phase ≠ .idle) (hq : s.rxs = []) :
    step s = .next (deliver s) := by
  cases hph : s.phase with
  | idle => exact absurd hph hp
  | ackWait | body => simp [step, hr, hph, onRead, hq]

/-- The fetch takes the first record of `cmd` when the issue slot is empty (R210). -/
theorem fetch_of_record {r : HostRecord} {l : List HostRecord} (hi : s.issue = none) (hc : s.cmd = r :: l) :
    fetch s = .instr (decodeRecord r) (takeRecord r l s) := by simp [fetch, hi, hc, decode]

/-- With no record and no issue the fetch finds nothing (R291). -/
theorem fetch_of_nothing (hi : s.issue = none) (hc : s.cmd = []) : fetch s = .nothing := by simp [fetch, hi, hc]

/-- The row IDLE of R27: an idle engine goes on to the acknowledgment wait with a frame, or stays idle without one. -/
theorem step_leaves_idle (hr : s.resetIn = false) (hp : s.phase = .idle) (h : step s = .next t) : Leaves s t := by
  cases step_takes h with
  | reset hr' _ => simp [hr] at hr'
  | nothing _ _ _ e =>
    subst e
    exact ⟨by simp [hp], by simp [hp], fun _ => rfl⟩
  | @record _ r q _ e => exact (exec_proceeds e).leaves.of_frames_eq (takeRecord_frames r q s)
  | @issued _ i e => exact (exec_proceeds e).leaves.of_frames_eq (takeIssue_frames i s)
  | delivery hb _ => exact absurd hp hb
  | ackAnswer ha _ => simp [hp] at ha
  | bodyAnswer hb _ => simp [hp] at hb

/-- A bound that is reached is there (R8). -/
theorem exists_of_reached {b : Option Nat} {n : Nat} (h : reached b n = true) : ∃ m, b = some m ∧ m ≤ n := by
  cases b with
  | none => cases h
  | some m => exact ⟨m, rfl, of_decide_eq_true h⟩

/-- A step of a busy engine goes on from the answer taken, and reads no other (R26). -/
theorem step_keeps_of_answer (hr : s.resetIn = false) (hp : s.phase ≠ .idle) (hq : s.rxs = a :: q)
    (h : step s = .next t) : Keeps (takeAnswer a q s) t := by
  cases hph : s.phase with
  | idle => exact absurd hph hp
  | ackWait => exact (onAckAnswer_keeps (step_of_ackWait hr hph hq ▸ h)).1
  | body => exact (onBodyAnswer_next (step_of_body hr hph hq ▸ h)).keeps

/-- Outside the body no step writes a general register (R24). -/
theorem step_genRegs_of_not_body (hr : s.resetIn = false) (hp : s.phase ≠ .body) (h : step s = .next t) :
    t.genRegs = s.genRegs := by
  cases step_takes h with
  | reset hr' _ => simp [hr] at hr'
  | nothing _ _ _ e => rw [e]
  | record _ _ e =>
    obtain ⟨_, hg, _⟩ := (exec_proceeds e).unchanged
    exact hg
  | @issued _ i e =>
    obtain ⟨_, hg, _⟩ := (exec_proceeds e).unchanged
    exact hg.trans (takeIssue_genRegs i s)
  | delivery _ e => rw [e, deliver_genRegs]
  | ackAnswer _ e => exact (onAckAnswer_keeps e).2
  | bodyAnswer hb _ => exact absurd hb hp

/-- What R190 makes of the general registers depends on them and on the configuration. -/
theorem updateRuntime_genRegs_congr {u : State} (x : StatusResponse) (hc : u.cfg = s.cfg) (hg : u.genRegs = s.genRegs) :
    (updateRuntime x u).genRegs = (updateRuntime x s).genRegs := by
  simp only [State.genRegs, Prod.mk.injEq] at hg
  obtain ⟨hcp, hct, hdp, hdt⟩ := hg
  cases hd : desBit s.cfg x.generalStatus <;> simp [updateRuntime, State.genRegs, hc, hd, hcp, hct, hdp, hdt]

/-- What keeps the inputs keeps the configuration. -/
theorem Keeps.cfg (h : Keeps s t) : t.cfg = s.cfg := congrArg Prod.fst h.inputs

end

/-! ### The obligations about the step -/

/-- Settles O29: the fetch takes the first record of `cmd`, whose decoding is total. -/
theorem stepRunsTheAcceptedOperation : Obligations.StepRunsTheAcceptedOperation := by
  intro s i r q hp hr hi hc hd _
  cases hd
  rw [step_of_idle hr hp, stepIdle, fetch_of_record hi hc]
  rfl

/-- Settles O31: the fetch finds nothing, and a step without an answer is the transport's. -/
theorem nothingHappensWithoutAnEvent : Obligations.NothingHappensWithoutAnEvent := by
  intro s hr
  refine ⟨fun hp hi hc => ?_, fun hp hq => ?_⟩
  · rw [step_of_idle hr hp, stepIdle, fetch_of_nothing hi hc]
  · rw [step_of_no_answer hr hp hq]
    refine ⟨fun h => ?_, fun a l h => ?_, fun n h => ⟨Config.rxFree n, ?_⟩⟩ <;> rw [deliver, h]

/-- Settles O32, row by row of R27's table. -/
theorem phaseChangesOnlyAsTheRulesSay : Obligations.PhaseChangesOnlyAsTheRulesSay := by
  intro s t hr h
  refine ⟨fun hp => step_leaves_idle hr hp h, fun hp a q hq => ?_, fun hp a q hq => ?_, fun hp hq => ?_⟩
  · rw [step_of_ackWait hr hp hq] at h
    obtain ⟨hbody, hidle⟩ := onAckAnswer_phase (s := takeAnswer a q s) hp h
    refine ⟨hbody, fun hi => ?_⟩
    obtain ⟨hwin, hsends, htries⟩ := hidle hi
    exact ⟨hwin, exists_of_reached hsends, fun ho => exists_of_reached (htries ho)⟩
  · rw [step_of_body hr hp hq] at h
    obtain ⟨hends, hleaves⟩ := (onBodyAnswer_next h).phase hp
    refine ⟨hends, fun ha => ?_, fun hi => ?_⟩
    · obtain ⟨_, hwait, _⟩ := (hleaves (by simp [ha])).of_frames_eq (takeAnswer_frames a q s)
      exact hwait ha
    · obtain ⟨_, _, hidle⟩ := (hleaves (by simp [hi])).of_frames_eq (takeAnswer_frames a q s)
      exact hidle hi
  · rw [step_of_no_answer hr hp hq] at h
    cases h
    exact deliver_phase s

/-- Settles O33: the answer taken is logged, and the rest of the step keeps the inputs. -/
theorem oneReadPerStep : Obligations.OneReadPerStep := by
  intro s t a q hr hp hq h
  obtain ⟨hin, l, hl, hread⟩ := step_keeps_of_answer hr hp hq h
  simp only [State.inputs, Prod.mk.injEq] at hin
  obtain ⟨_, hcmd, hrxs, hmore, _⟩ := hin
  exact ⟨hrxs, hmore, hcmd, l, by simpa using hl, hread⟩

/-- Settles O44: the step is in the body and completes the transaction, and the frame it parses is the one accumulated. -/
theorem generalRegistersHaveOneWriter : Obligations.GeneralRegistersHaveOneWriter := by
  intro s t hr h hne
  have hp : s.phase = .body := by_contra fun hp => hne (step_genRegs_of_not_body hr hp h)
  cases hq : s.rxs with
  | nil =>
    rw [step_of_no_answer hr (by simp [hp]) hq] at h
    cases h
    exact absurd (deliver_genRegs s) hne
  | cons a q =>
    cases onBodyAnswer_next (step_of_body hr hp hq ▸ h) with
    | stored _ _ e => exact absurd (congrArg State.genRegs e) hne
    | @last b _ hdone =>
      obtain ⟨x, hx, hg⟩ := hdone.genRegs.resolve_left hne
      exact ⟨hp, _, x, hx, hg.trans (updateRuntime_genRegs_congr x rfl rfl), .inr ⟨b, q, rfl, rfl⟩⟩
    | timeout hdone =>
      obtain ⟨x, hx, hg⟩ := hdone.genRegs.resolve_left hne
      exact ⟨hp, _, x, hx, hg.trans (updateRuntime_genRegs_congr x rfl rfl), .inl ⟨q, rfl, rfl⟩⟩

/-- Settles O56, by the event the step takes. -/
theorem configurationIsReadOnly : Obligations.ConfigurationIsReadOnly := by
  intro s t h
  cases step_takes h with
  | reset _ e => rw [e, applyReset_cfg]
  | nothing _ _ _ e => rw [e]
  | record _ _ e => exact (exec_proceeds e).keeps.cfg
  | @issued _ i e => exact (exec_proceeds e).keeps.cfg.trans (takeIssue_cfg i s)
  | delivery _ e => rw [e, deliver_cfg]
  | ackAnswer _ e => exact (onAckAnswer_keeps e).1.cfg
  | bodyAnswer _ e => exact (onBodyAnswer_next e).keeps.cfg

/-- Settles O57: the default configuration is one R8 allows, and an idle engine needs no more than sound fields. -/
theorem resetMeetsTheInvariant : Obligations.ResetMeetsTheInvariant :=
  Sound.inv_of_idle
    { config := by decide, records := by simp [State.reset], txForm := rfl, rxForm := rfl, txSpace := by simp [State.reset]
      rxSpace := by simp [State.reset], txLen := Nat.zero_le _, rxLen := Nat.zero_le _
      attempt := Nat.le_refl 1, startupN := Nat.le_refl 1 } rfl

end Sys2Proof.Machine
end

section
/-! SUPPORT. No stop from an invariant state: each operation of the engine gives a next state, where the lengths lie in the
buffers (R50) and the reply has a row in R212's table. -/

namespace Sys2Proof.Machine

/-- The outcome is a next state: neither a fault of the model nor a refusal. -/
def GivesNext (o : Out) : Prop := ∃ t, o = .next t

/-! ### Executing an instruction -/

/-- The start of a transaction gives a next state, whatever it turns out to be (R181). -/
theorem Opens.givesNext {c : Cmd} {a : Args} {u : State} {o : Out} (h : Opens c a u o) : GivesNext o := by
  cases h <;> exact ⟨_, rfl⟩

/-- Every instruction gives a next state, in every state. -/
theorem exec_givesNext (i : Instr) (s : State) : GivesNext (exec i s) := by
  rcases exec_cases i s with ⟨_, _, _, h⟩ | ⟨_, _, h⟩
  · exact h.givesNext
  · exact ⟨_, h⟩

/-! ### Continue (R212) -/

/-- The operations that poll after their first reply (R215). -/
def HostOp.polls (o : HostOp) : Prop := o = .moveAbsolute ∨ o = .moveDelta ∨ o = .home

/-- The table of R212: the replies that an operation goes on from in a stage. -/
inductive ContinueRow : HostOp → Stage → Reply → Prop
  | startup (x : StatusResponse) : ContinueRow .startup .first (.status x)
  | getStatus (x : StatusResponse) : ContinueRow .getStatus .first (.status x)
  | faultReset (x : StatusResponse) : ContinueRow .faultReset .first (.status x)
  | moveStatus {o : HostOp} (h : o.polls) (x : StatusResponse) : ContinueRow o .first (.status x)
  | moveNothing {o : HostOp} (h : o.polls) : ContinueRow o .first .nothing
  | movePoll {o : HostOp} (h : o.polls) (x : StatusResponse) : ContinueRow o .second (.status x)
  | getTmo (t : BitVec 7) : ContinueRow .getTmo .first (.timeout t)
  | setTmo (t : BitVec 7) : ContinueRow .setTmo .first (.timeout t)
  | readBack (t : BitVec 7) : ContinueRow .setTmo .second (.timeout t)

/-- A completion poll ends the move or polls again (R219). -/
theorem continuePoll_givesNext (x : StatusResponse) (s : State) : GivesNext (continuePoll x s) := by
  rw [continuePoll]
  split
  · exact ⟨_, rfl⟩
  · split
    · exact (issueXact_opens _ _ _).givesNext
    · exact ⟨_, rfl⟩

/-- `FAULT_RESET` ends with its report (R221). -/
theorem continueReset_givesNext (x : StatusResponse) (s : State) : GivesNext (continueReset x s) := by
  rw [continueReset]
  split <;> exact ⟨_, rfl⟩

/-- `SET_TMO` ends with the value read back (R224). -/
theorem continueReadBack_givesNext (t : BitVec 7) (s : State) : GivesNext (continueReadBack t s) := by
  rw [continueReadBack]
  split <;> exact ⟨_, rfl⟩

/-- The three operations that poll share their rows (R215, R218). -/
theorem continueOp_of_polls {o : HostOp} (h : o.polls) {s : State} (ho : hostOpOf s.op = some o) (r : Reply) :
    continueOp r s = continueMoveOp r s := by
  rcases h with rfl | rfl | rfl <;> simp only [continueOp, ho]

/-- `Continue` stops on no row of its table (R212). -/
theorem ContinueRow.givesNext {o : HostOp} {r : Reply} {s : State} (h : ContinueRow o s.stage r)
    (ho : hostOpOf s.op = some o) : GivesNext (continueOp r s) := by
  generalize hg : s.stage = g at h
  cases h with
  | startup | getStatus | getTmo =>
    simp only [continueOp, ho, hg]
    exact ⟨_, rfl⟩
  | faultReset x =>
    simp only [continueOp, ho, hg]
    exact continueReset_givesNext x s
  | moveStatus h | moveNothing h =>
    simp only [continueOp_of_polls h ho, continueMoveOp, hg]
    exact (issueXact_opens _ _ _).givesNext
  | movePoll h x =>
    simp only [continueOp_of_polls h ho, continueMoveOp, hg]
    exact continuePoll_givesNext x s
  | setTmo =>
    simp only [continueOp, ho, continueSetTmo, hg]
    exact (issueXact_opens _ _ _).givesNext
  | readBack t =>
    simp only [continueOp, ho, continueSetTmo, hg]
    exact continueReadBack_givesNext t s

/-- What `parse` answers for a command whose reply is a status (R88). -/
theorem parse_status {c : Config} {cmd : Cmd} {f : List Byte} {r : Reply} (h : parse c cmd f = .ok r)
    (hk : (registry c cmd).replyKind = .rs) : ∃ x, r = .status x := by
  rcases parse_ok h with ⟨x, _, e⟩ | ⟨_, k, _⟩ | ⟨k, _⟩
  · exact ⟨x, e⟩
  · simp [hk] at k
  · simp [hk] at k

/-- What `parse` answers for a command whose reply is a timeout (R88). -/
theorem parse_timeout {c : Config} {cmd : Cmd} {f : List Byte} {r : Reply} (h : parse c cmd f = .ok r)
    (hk : (registry c cmd).replyKind = .rt) : ∃ t, r = .timeout t := by
  rcases parse_ok h with ⟨_, k, _⟩ | ⟨t, _, e⟩ | ⟨k, _⟩
  · simp [hk] at k
  · exact ⟨t, e⟩
  · simp [hk] at k

/-- The reply of `home` is a status or nothing, by HOME_REPLY (R162). -/
theorem parse_home {c : Config} {f : List Byte} {r : Reply} (h : parse c .home f = .ok r) :
    (∃ x, r = .status x) ∨ r = .nothing := by
  rcases parse_ok h with ⟨x, _, e⟩ | ⟨_, k, _⟩ | ⟨_, e⟩
  · exact .inl ⟨x, e⟩
  · simp only [registry, homeReplyKind] at k
    split at k <;> cases k
  · exact .inr e

/-- The reply to the command of an operation's stage has a row in R212's table. -/
theorem continueRow_of_parse {o : HostOp} {g : Stage} {c : Cmd} {cfg : Config} {f : List Byte} {r : Reply}
    (hc : stageCmd o g = some c) (h : parse cfg c f = .ok r) : ContinueRow o g r := by
  cases o <;> cases g <;> cases hc
  case startup.first.refl | getStatus.first.refl | faultReset.first.refl =>
    obtain ⟨x, rfl⟩ := parse_status h rfl
    constructor
  case moveAbsolute.first.refl | moveDelta.first.refl =>
    obtain ⟨x, rfl⟩ := parse_status h rfl
    exact .moveStatus (by simp [HostOp.polls]) x
  case home.first.refl =>
    rcases parse_home h with ⟨x, rfl⟩ | rfl
    · exact .moveStatus (by simp [HostOp.polls]) x
    · exact .moveNothing (by simp [HostOp.polls])
  case moveAbsolute.second.refl | moveDelta.second.refl | home.second.refl =>
    obtain ⟨x, rfl⟩ := parse_status h rfl
    exact .movePoll (by simp [HostOp.polls]) x
  case getTmo.first.refl | setTmo.first.refl | setTmo.second.refl =>
    obtain ⟨t, rfl⟩ := parse_timeout h rfl
    constructor

/-! ### The small steps of a transaction -/

/-- `Complete` gives a next state: the frame lies in its buffer, and the reply of the running command has a row (R189). -/
theorem complete_givesNext {s : State} (hlen : s.rxLen ≤ s.cfg.rxBufLen) (hr : Ready s.curCmd s) :
    GivesNext (complete s) := by
  rcases complete_cases s with ⟨hover, _⟩ | ⟨_, _, _, h⟩ | ⟨_, r, hp, h⟩
  · omega
  · exact ⟨_, h⟩
  · obtain ⟨o, ho, hc⟩ := hr.paired
    have hrow : ContinueRow o (updateFor r s).stage r := by
      rw [updateFor_stage]
      exact continueRow_of_parse hc hp
    rw [h]
    exact hrow.givesNext (by rwa [updateFor_op])

/-- `NoResponse` gives a next state: the frame to send again lies in its buffer (R185, R186). -/
theorem noResponse_givesNext {s : State} (hlen : s.txLen ≤ Const.txBufLen) : GivesNext (noResponse s) := by
  rcases noResponse_cases s with ⟨_, h⟩ | ⟨_, hover, _⟩ | ⟨_, _, h⟩
  · exact ⟨_, h⟩
  · omega
  · exact ⟨_, h⟩

/-- An answer in the acknowledgment wait gives a next state: `rx_buf` has room for the ACK (R8, R182 to R186). -/
theorem onAckAnswer_givesNext {s : State} (hs : Sound s) (a : Option Byte) : GivesNext (onAckAnswer a s) := by
  rcases onAckAnswer_cases a s with ⟨_, h⟩ | ⟨_, h⟩ | ⟨_, _, _, _, h⟩ | ⟨_, _, _, _, h⟩
  · rw [h]
    exact noResponse_givesNext hs.txLen
  · obtain ⟨_, _, hfloor⟩ := bounds_of_valid hs.config
    have hroom : 0 < s.cfg.rxBufLen := Nat.lt_of_lt_of_le (by decide) hfloor
    exact ⟨_, by rw [h, ackSeen, if_pos hroom]⟩
  · exact ⟨_, h⟩
  · rw [h]
    exact noResponse_givesNext (s := { s with win := s.win + 1 }) hs.txLen

/-- An answer in the body gives a next state: `rx_buf` is not full (R187, R188). -/
theorem onBodyAnswer_givesNext {s : State} (h : s.Inv) (hp : s.phase = .body) (a : Option Byte) :
    GivesNext (onBodyAnswer a s) := by
  have hr : Ready s.curCmd s := (h.busy (by simp [hp])).ready
  obtain ⟨_, hroom, _⟩ := h.body hp
  rcases onBodyAnswer_cases a s with ⟨_, hc⟩ | ⟨_, _, hfull, _⟩ | ⟨b, _, _, _, hc⟩ | ⟨_, _, _, _, hc⟩
  · rw [hc]
    exact complete_givesNext h.rxLen hr
  · omega
  · rw [hc]
    exact complete_givesNext (s := storeRx b s) hroom ⟨hr.paired, hr.tries⟩
  · exact ⟨_, hc⟩

/-! ### The step -/

/-- The step of a suspended engine gives a next state where every answer does (R7). -/
theorem onRead_givesNext {handle : Option Byte → State → Out} {s : State}
    (h : ∀ a q, GivesNext (handle a (takeAnswer a q s))) : GivesNext (onRead handle s) := by
  rcases onRead_cases handle s with ⟨_, e⟩ | ⟨a, q, _, e⟩
  · exact ⟨_, e⟩
  · exact e ▸ h a q

/-- An idle engine refuses nothing but an issue slot that spells no wire command (R107; log entry 8). -/
theorem stepIdle_givesNext_or_refused (s : State) : GivesNext (stepIdle s) ∨
    ∃ bs e, s.issue = some bs ∧ decode (.payload bs) = .error e ∧ stepIdle s = .refused (.undecodable e) := by
  rcases fetch_cases s with ⟨_, _, e⟩ | ⟨_, _, _, _, e⟩ | ⟨_, _, _, _, e⟩ | ⟨bs, x, hi, hd, e⟩ <;> simp only [stepIdle, e]
  · exact .inl ⟨_, rfl⟩
  · exact .inl (exec_givesNext _ _)
  · exact .inl (exec_givesNext _ _)
  · exact .inr ⟨bs, x, hi, hd, rfl⟩

/-- A step from an invariant state gives a next state, or refuses the issue slot of an idle engine. -/
theorem step_givesNext_or_refused {s : State} (h : s.Inv) : GivesNext (step s) ∨
    s.phase = .idle ∧ ∃ bs e, s.issue = some bs ∧ decode (.payload bs) = .error e ∧
      step s = .refused (.undecodable e) := by
  rw [step]
  split
  · exact .inl ⟨_, rfl⟩
  · cases hp : s.phase with
    | idle => exact (stepIdle_givesNext_or_refused s).imp_right fun hbad => ⟨rfl, hbad⟩
    | ackWait => exact .inl (onRead_givesNext fun a q => onAckAnswer_givesNext (takeAnswer_inv h a q).sound a)
    | body => exact .inl (onRead_givesNext fun a q => onBodyAnswer_givesNext (takeAnswer_inv h a q) hp a)

/-- Settles O59: of the model's stops an invariant state leaves only the refusal of the issue slot. -/
theorem invariantStatesNeverStop : Obligations.InvariantStatesNeverStop := by
  intro s h
  rcases step_givesNext_or_refused h with ⟨t, ht⟩ | ⟨hp, bs, e, hi, hd, he⟩
  · exact ⟨fun x => by simp [ht], fun x hx => by simp [ht] at hx⟩
  · exact ⟨fun x => by simp [he], fun x _ => ⟨hp, bs, e, hi, hd⟩⟩

end Sys2Proof.Machine
end

section
/-! SUPPORT. What undoes a frame: unescape after escape (R129 a), the checksum with its own appended (R124 a), the identity that
was prepended (R144), the markers (R82, R83); with them a canonical reply parses, and a monitor reads what was framed. -/

namespace Sys2Proof.Machine

/-! ### The codec -/

/-- Setting bit 7 of a control character and clearing it again gives the character back (R126, R127). -/
theorem or_and_of_isCtrl {b : Byte} (h : isCtrl b = true) : (b ||| 0x80) &&& 0x7F = b := by
  revert b
  decide

/-- A byte that is not ESC unescapes to itself (R127). -/
theorem unescape_cons_of_ne {b : Byte} (h : b ≠ Const.esc) (s : List Byte) :
    unescape (b :: s) = consOk b (unescape s) := by
  cases s with
  | nil => rw [unescape, unescape, if_neg h, consOk]
  | cons x s => rw [unescape, if_neg h]

/-- `unescape` inverts `escape` (R129 a). -/
theorem unescape_escape (s : List Byte) : unescape (escape s) = .ok s := by
  induction s with
  | nil => rfl
  | cons b s ih =>
    cases hb : isCtrl b with
    | true => rw [escape, if_pos hb, unescape, if_pos rfl, ih, consOk, or_and_of_isCtrl hb]
    | false =>
      have hne : b ≠ Const.esc := by
        rintro rfl
        cases hb
      rw [escape, if_neg (by simp [hb]), unescape_cons_of_ne hne, ih, consOk]

/-- The checksum of a concatenation (R124 c). -/
theorem checksum_append (s t : List Byte) : checksum (s ++ t) = checksum s ^^^ checksum t := by
  induction s with
  | nil => simp
  | cons b s ih => simp [ih, BitVec.xor_assoc]

/-- A sequence with its checksum appended folds to zero (R124 a). -/
@[simp] theorem checksum_append_checksum (s : List Byte) : checksum (s ++ [checksum s]) = 0 := by
  simp [checksum_append]

/-! ### The frame -/

/-- The identity that `assemble` prepends is the one that is stripped (R144, R153). -/
@[simp] theorem stripIdentity_identityBytes_append (c : Config) (p : List Byte) :
    stripIdentity c (identityBytes c ++ p) = .ok p := by
  cases h : c.hasIdentity <;> simp [stripIdentity, identityBytes, h]

/-- A sequence between two bytes has both of them as its markers. -/
theorem markers_present (m x : Byte) (e : List Byte) : ¬((m :: (e ++ [x])).length < 2 ∨
    (m :: (e ++ [x])).head? ≠ some m ∨ (m :: (e ++ [x])).getLast? ≠ some x) := by
  simp [List.getLast?_cons]

/-- Stripping ACK and ETX gives the bytes between them (R151). -/
theorem frameBody_framed (e : List Byte) : frameBody (Const.ack :: (e ++ [Const.etx])) = some e := by
  rw [frameBody, if_neg (markers_present _ _ _)]
  simp

/-- A framed reply is checked on its payload once it unescapes and its identity is stripped (R150). -/
theorem parse_framed {c : Config} {e u p : List Byte} (cmd : Cmd) (hu : unescape e = .ok u)
    (hp : stripIdentity c u = .ok p) :
    parse c cmd (Const.ack :: (e ++ [Const.etx])) = parseChecked (registry c cmd) p := by
  rw [parse, frameBody_framed]
  simp only [hu, hp]

/-- A payload with its own checksum passes the checks of R154 and R155. -/
theorem parseChecked_append_checksum (d : Descriptor) {u : List Byte} (h : u ≠ []) :
    parseChecked d (u ++ [checksum u]) = parsePayload d u := by
  simp [parseChecked, h]

/-- Under the opcode of its command a payload goes to the command's parse routine (R156). -/
theorem parsePayload_opcode (d : Descriptor) (data : List Byte) :
    parsePayload d (d.opcode :: data) = parseData d.replyKind data := by simp [parsePayload]

/-- A monitor that undoes a frame decodes the payload it was made of (R104, R141). -/
theorem decodeFrame_frameOf (c : Config) {body : List Byte} (h : body ≠ []) :
    decodeFrame c (frameOf c body) = decodePayload body := by
  rw [frameOf, decodeFrame, if_neg (markers_present _ _ _)]
  simp [unescape_escape, h]

/-- A canonical reply, framed as R141 frames a command, has its payload checked (R83, R150). -/
theorem parse_canonical (c : Config) (cmd : Cmd) {body : List Byte} (h : body ≠ []) :
    parse c cmd (Const.ack :: (escape (identityBytes c ++ (body ++ [checksum body])) ++ [Const.etx])) =
      parsePayload (registry c cmd) body :=
  (parse_framed cmd (unescape_escape _) (stripIdentity_identityBytes_append c _)).trans
    (parseChecked_append_checksum _ h)

/-- Settles O9: each step of R150 undoes the step of the framing it answers to. -/
theorem parseRecoversAFramedReply : Obligations.ParseRecoversAFramedReply := by
  intro c cmd data
  exact (parse_canonical c cmd (List.cons_ne_nil _ data)).trans (parsePayload_opcode _ data)

end Sys2Proof.Machine
end

section
/-! SUPPORT. Decoding what was assembled: the payload inside an assembled frame is the encoding of the wire command (R88, R104),
and the words of the table are encodings (R107). -/

namespace Sys2Proof.Decoding

open Sys2Proof.Machine

/-- The encoded operands of a move are the data its assemble routine makes (R93, R160). -/
theorem encodeAxes_of_moveData {sent : Int} {p t : Option Int} {d : List Byte}
    (h : (moveData sent p t).map some = .ok (some d)) : encodeAxes sent p t = d := by
  cases hm : moveData sent p t with
  | ok b => simpa [encodeAxes, hm, Except.map] using h
  | error e => simp [hm, Except.map] at h

/-- The encoding of a wire command is its opcode before the data its assemble routine makes (R88, R141). -/
theorem encode_eq_of_assembleData {i : Instr} {bs d : List Byte} {cmd : Cmd} {a : Args} (c : Config)
    (he : encode i = .payload bs) (hf : firstCmd i = some (cmd, a)) (hd : assembleData cmd a = .ok (some d)) :
    bs = (registry c cmd).opcode :: d := by
  cases i with
  | moveAbsolute p t | moveDelta p t =>
    cases he
    cases hf
    rw [encodeAxes_of_moveData hd]
    rfl
  | setCommunicationTimeout t =>
    cases he
    cases hf
    simp only [assembleData, timeoutData, Except.ok.injEq] at hd
    split at hd <;> cases hd
    rfl
  | getStatus | faultReset | home | getCommunicationTimeout =>
    cases he
    cases hf
    cases hd
    rfl
  | _ => cases he

/-- Settles O15: undoing the frame leaves the payload, which is the encoding of the wire command. -/
theorem monitorReadsAssembledFrames : Obligations.MonitorReadsAssembledFrames := by
  intro c i bs f cmd a hwf he hf ha
  rcases assemble_cases c cmd a with ⟨d, hd, _, h⟩ | ⟨_, h⟩ | ⟨_, _, h⟩ <;> rw [h] at ha <;> cases ha
  have hbs := encode_eq_of_assembleData c he hf hd
  calc
    decodeFrame c (frameOf c ((registry c cmd).opcode :: d)) = decodePayload ((registry c cmd).opcode :: d) :=
      decodeFrame_frameOf c (List.cons_ne_nil _ _)
    _ = decode (encode i) := by rw [he, hbs, decode]
    _ = .ok i := decode_encode hwf

/-- A table word that stands for the encoding of a well-formed instruction decodes to it (R107; log entry 9). -/
theorem decodeTableWord_of_encode {c : Config} {nbits w : Nat} {i : Instr} (hwf : WellFormed c i = true)
    (h : tableCode nbits w = encode i) : decodeTableWord nbits w = some i := by
  rw [decodeTableWord, h, decode_encode hwf]

/-- Settles O16: every word but the last is the encoding of its instruction; 0x32 is no opcode of R89. -/
theorem tableWordsDecode : Obligations.TableWordsDecode := by
  have hword := @decodeTableWord_of_encode Config.default
  have hpan : WellFormed Config.default (.moveAbsolute (some 900) (some (-450))) = true := rfl
  have hdelta : WellFormed Config.default (.moveDelta (some 100) none) = true := rfl
  exact ⟨hword rfl rfl, hword rfl rfl, hword rfl rfl, hword rfl rfl, hword rfl rfl, decode_encode hpan,
    decode_encode hdelta, hword rfl rfl, hword rfl rfl, rfl⟩

end Sys2Proof.Decoding
end

section
/-! SUPPORT. Executing an instruction whose data encodes (R158 to R163, R181), and the step that takes the model's own issue slot
(log entry 8). -/

namespace Sys2Proof.Machine

/-- Two operands that encode are the data of a move, pan before tilt (R93, R160). -/
theorem moveData_map_of_ok {sent : Int} {pan tilt : Option Int} {p t : List Byte}
    (hp : encodeInt16 (pan.getD sent) = .ok p) (ht : encodeInt16 (tilt.getD sent) = .ok t) :
    (moveData sent pan tilt).map some = .ok (some (p ++ t)) := by simp [moveData, axisValue, hp, ht, Except.map]

/-- What R181 leaves is the fault registers cleared and the frame sent. -/
theorem sendFrame_clearFault (c : Cmd) (f : List Byte) (s : State) : sendFrame c f (clearFault s) = sent c f s := rfl

/-- An instruction whose data encodes starts its transaction with the opcode and the data (R141, R181). -/
theorem exec_of_assembleData {i : Instr} {cmd : Cmd} {a : Args} {d : List Byte} (hf : firstCmd i = some (cmd, a))
    (hi : ∀ v, i ≠ .opSetTmo v) (hd : assembleData cmd a = .ok (some d)) (s : State) :
    exec i s = .next (sent cmd (frameOf s.cfg ((registry s.cfg cmd).opcode :: d)) (entry i s)) := by
  have ha : assemble (entry i s).cfg cmd a = .ok (some (frameOf s.cfg ((registry s.cfg cmd).opcode :: d))) := by
    simp [assemble, hd]
  rw [exec_eq_issueXact hf hi, issueXact_of_ok ha, sendFrame_clearFault]

/-- Settles O18: the data of each is the row's of the table. -/
theorem plainCommandsStart : Obligations.PlainCommandsStart := by
  intro s
  exact ⟨exec_of_assembleData (i := .getStatus) rfl (by simp) rfl s,
    exec_of_assembleData (i := .faultReset) rfl (by simp) rfl s,
    exec_of_assembleData (i := .home) rfl (by simp) rfl s,
    exec_of_assembleData (i := .getCommunicationTimeout) rfl (by simp) rfl s⟩

/-- Settles O19: two operands that encode are the data of either move. -/
theorem moveCommandsStart : Obligations.MoveCommandsStart := by
  intro s pan tilt p t
  exact ⟨fun hp ht => exec_of_assembleData (i := .moveAbsolute pan tilt) rfl (by simp) (moveData_map_of_ok hp ht) s,
    fun hp ht => exec_of_assembleData (i := .moveDelta pan tilt) rfl (by simp) (moveData_map_of_ok hp ht) s⟩

/-- The fetch takes a loaded issue slot before any record (log entry 8). -/
theorem fetch_of_issue {s : State} {bs : List Byte} {i : Instr} (hi : s.issue = some bs)
    (hd : decode (.payload bs) = .ok i) : fetch s = .instr i (takeIssue i s) := by simp [fetch, hi, hd]

/-- Settles O30: the fetch takes the issue slot, and enters the operation of its command. -/
theorem stepRunsTheIssuedCommand : Obligations.StepRunsTheIssuedCommand := by
  intro s i bs hp hr hi hd _
  rw [step_of_idle hr hp, stepIdle, fetch_of_issue hi hd]
  rfl

end Sys2Proof.Machine
end

section
/-! SUPPORT. The laws of the byte framer (40_codec.md R120 to R129): the int16 codec, the checksum, the escape codec. -/

namespace Sys2Proof.Machine

/-! ### The int16 codec -/

/-- The two bytes of `encode_int16`, weighed 1 and 256, are the value modulo 65536 (R120). -/
theorem int16Bytes_value (v : Int) :
    ((BitVec.ofNat 8 (v % 65536).toNat).toNat : Int) + 256 * (BitVec.ofNat 8 ((v % 65536).toNat / 256)).toNat =
      v % 65536 := by
  simp only [BitVec.toNat_ofNat]
  omega

/-- A signed 16-bit value lies in the range of `encode_int16` (R120, R121). -/
theorem half_toInt_range (h : Half) : -32768 ≤ h.toInt ∧ h.toInt ≤ 32767 := by
  have hlow := BitVec.le_toInt h
  have hhigh := BitVec.toInt_le (x := h)
  omega

/-- A signed 16-bit value modulo 65536 is its pattern as a number (R121). -/
theorem half_toInt_emod (h : Half) : (h.toInt % 65536).toNat = h.toNat := by
  have hlt := h.isLt
  rw [BitVec.toInt_eq_toNat_bmod, Int.bmod_def]
  omega

/-- The number of a 16-bit pattern written high byte before low byte (R121). -/
theorem half_toNat_append (lo hi : Byte) : (hi ++ lo : Half).toNat = 256 * hi.toNat + lo.toNat := by
  rw [BitVec.toNat_append, ← Nat.shiftLeft_add_eq_or_of_lt lo.isLt, Nat.shiftLeft_eq]
  omega

/-- `encode_int16` inverts `decode_int16` on a pair of bytes (R122). -/
theorem encodeInt16_toInt_append (lo hi : Byte) : encodeInt16 (hi ++ lo : Half).toInt = .ok [lo, hi] := by
  obtain ⟨hlow, hhigh⟩ := half_toInt_range (hi ++ lo)
  have hlo := lo.isLt
  have hhi := hi.isLt
  rw [encodeInt16_of_range hlow hhigh, half_toInt_emod, half_toNat_append]
  congr 3
  · apply BitVec.eq_of_toNat_eq
    rw [BitVec.toNat_ofNat]
    omega
  · apply BitVec.eq_of_toNat_eq
    rw [BitVec.toNat_ofNat]
    omega

/-- Settles O1: in range the bytes are the two of R120; out of range the value is raised. -/
theorem encodeInt16WritesTwosComplement : Obligations.EncodeInt16WritesTwosComplement := by
  intro v
  exact ⟨fun h1 h2 => ⟨_, _, encodeInt16_of_range h1 h2, int16Bytes_value v⟩, encodeInt16_out_of_range⟩

/-- Settles O2: the bytes of a value read back as the value, and every pair of bytes is those of its value. -/
theorem int16CodecIsInverse : Obligations.Int16CodecIsInverse := by
  refine ⟨fun v h1 h2 => ?_, fun v h => ⟨_, encodeInt16_out_of_range h⟩, fun b hb => ?_⟩
  · exact ⟨_, _, encodeInt16_of_range h1 h2, decodeInt16_pair _ _, Decoding.half_of_encodeInt16 h1 h2⟩
  · obtain ⟨lo, hi, rfl⟩ := List.length_eq_two.mp hb
    exact ⟨_, decodeInt16_pair lo hi, encodeInt16_toInt_append lo hi⟩

/-! ### The checksum -/

/-- The checksum does not depend on the order of the bytes (R124 b). -/
theorem checksum_perm {p q : List Byte} (h : p.Perm q) : checksum p = checksum q := by
  induction h with
  | nil => rfl
  | cons b _ ih => rw [checksum_cons, checksum_cons, ih]
  | swap a b s => simp only [checksum_cons, ← BitVec.xor_assoc, BitVec.xor_comm b]
  | trans _ _ ih1 ih2 => exact ih1.trans ih2

/-- Flipping bits of one byte flips the same bits of the checksum (R124 b). -/
theorem checksum_flip (p q : List Byte) (x m : Byte) :
    checksum (p ++ (x ^^^ m) :: q) = checksum (p ++ x :: q) ^^^ m := by
  rw [checksum_perm List.perm_middle, checksum_perm List.perm_middle, checksum_cons, checksum_cons,
    BitVec.xor_assoc, BitVec.xor_assoc, BitVec.xor_comm m]

/-- The same flip in two bytes leaves the checksum unchanged (R124 b). -/
theorem checksum_flip_two (p q r : List Byte) (x y m : Byte) :
    checksum (p ++ (x ^^^ m) :: (q ++ (y ^^^ m) :: r)) = checksum (p ++ x :: (q ++ y :: r)) := by
  have hy : checksum (p ++ x :: (q ++ (y ^^^ m) :: r)) = checksum (p ++ x :: (q ++ y :: r)) ^^^ m := by
    simpa using checksum_flip (p ++ x :: q) r y m
  rw [checksum_flip, hy, BitVec.xor_assoc, BitVec.xor_self, BitVec.xor_zero]

/-- A flip of at least one bit of one byte changes the checksum (R124 b). -/
theorem checksum_flip_ne (p q : List Byte) (x : Byte) {m : Byte} (hm : m ≠ 0) :
    checksum (p ++ x :: q) ≠ checksum (p ++ (x ^^^ m) :: q) := by
  rw [checksum_flip]
  intro h
  exact hm (BitVec.xor_right_inj _ |>.mp (h.symm.trans BitVec.xor_zero.symm))

/-- Settles O3: (b) is the flip of the checksum by the bits flipped in a byte, once and twice. -/
theorem checksumLaws : Obligations.ChecksumLaws :=
  ⟨checksum_append_checksum, fun _ _ => checksum_perm, fun p q r x y m => (checksum_flip_two p q r x y m).symm,
    fun p q x _ => checksum_flip_ne p q x, checksum_append⟩

/-! ### Escaping -/

/-- The members of CTRL, written out (R20). -/
theorem isCtrl_iff (b : Byte) : isCtrl b = true ↔ b ∈ ([0x02, 0x03, 0x06, 0x15, 0x1B] : List Byte) := by
  simp [isCtrl, or_assoc]

/-- What `escape` makes of one byte (R126). -/
def escapeByte (b : Byte) : List Byte := if isCtrl b then [Const.esc, b ||| 0x80] else [b]

/-- A control character becomes ESC and the byte with bit 7 set (R126). -/
theorem escapeByte_of_isCtrl {b : Byte} (h : isCtrl b = true) : escapeByte b = [Const.esc, b ||| 0x80] := if_pos h

/-- Every other byte passes (R126). -/
theorem escapeByte_of_not_isCtrl {b : Byte} (h : isCtrl b = false) : escapeByte b = [b] := by
  rw [escapeByte, if_neg (by simp [h])]

/-- `escape` works byte by byte (R126). -/
theorem escape_eq_flatMap (s : List Byte) : escape s = s.flatMap escapeByte := by
  induction s with
  | nil => rfl
  | cons b s ih => rw [escape_cons, ih, List.flatMap_cons, escapeByte]

/-- `escape` distributes over concatenation (R129 d). -/
theorem escape_append (s t : List Byte) : escape (s ++ t) = escape s ++ escape t := by
  simp only [escape_eq_flatMap, List.flatMap_append]

/-- `escape` never shortens a sequence (R126). -/
theorem length_le_escape_length (s : List Byte) : s.length ≤ (escape s).length := by
  induction s with
  | nil => simp
  | cons b s ih =>
    rw [escape_cons]
    split <;> simp <;> omega

/-- A byte with bit 7 set has bit 7 set, whatever it was before (R126). -/
theorem getLsbD_or_bit7 (b : Byte) : (b ||| 0x80).getLsbD 7 = true := by simp

/-- Bit 7 is clear in every control character (R20). -/
theorem getLsbD_bit7_of_isCtrl {b : Byte} (h : isCtrl b = true) : b.getLsbD 7 = false := by
  revert b
  decide

/-- A byte with bit 7 set is no control character (R20, R126). -/
theorem not_isCtrl_or_bit7 (b : Byte) : ¬isCtrl (b ||| 0x80) = true := by
  intro h
  cases (getLsbD_or_bit7 b).symm.trans (getLsbD_bit7_of_isCtrl h)

/-- The only control character in what one byte becomes is ESC (R129 b). -/
theorem eq_esc_of_mem_escapeByte {b c : Byte} (hb : b ∈ escapeByte c) (h : isCtrl b = true) : b = Const.esc := by
  cases hc : isCtrl c with
  | true =>
    rw [escapeByte_of_isCtrl hc, List.mem_pair] at hb
    rcases hb with rfl | rfl
    · rfl
    · exact absurd h (not_isCtrl_or_bit7 c)
  | false =>
    rw [escapeByte_of_not_isCtrl hc, List.mem_singleton] at hb
    rw [hb, hc] at h
    cases h

/-- In an escaped text every ESC is followed by a byte with bit 7 set (R129 b). -/
theorem escape_bit7_after_esc {s pre post : List Byte} (h : escape s = pre ++ Const.esc :: post) :
    ∃ y r, post = y :: r ∧ y.getLsbD 7 = true := by
  induction s generalizing pre with
  | nil => simp at h
  | cons b s ih =>
    cases hb : isCtrl b with
    | true =>
      rw [escape, if_pos hb] at h
      match pre, h with
      | [], h =>
        injection h with _ hpost
        exact ⟨_, _, hpost.symm, getLsbD_or_bit7 b⟩
      | [a], h =>
        injection h with _ h
        injection h with he _
        exact absurd (he ▸ rfl) (not_isCtrl_or_bit7 b)
      | a :: a' :: pre, h =>
        injection h with _ h
        injection h with _ h
        exact ih h
    | false =>
      rw [escape, if_neg (by simp [hb])] at h
      match pre, h with
      | [], h =>
        injection h with he _
        rw [he] at hb
        cases hb
      | a :: pre, h =>
        injection h with _ h
        exact ih h

/-- Settles O4: what one byte becomes is what R126 says, and the lengths follow. -/
theorem escapeIsBytewise : Obligations.EscapeIsBytewise := by
  intro s
  refine ⟨?_, length_le_escape_length s, escape_length_le s⟩
  rw [escape_eq_flatMap]
  congr 1
  funext b
  simp only [escapeByte, isCtrl_iff]

/-- Settles O5: `[ESC, 0]` unescapes to a byte that needs no escape, and cutting it leaves ESC without a byte. -/
theorem escapeLaws : Obligations.EscapeLaws := by
  refine ⟨unescape_escape, fun x b hb hc => ?_, fun x pre post => escape_bit7_after_esc,
    ⟨[0x1B, 0x00], [0x00], rfl, by decide⟩, escape_append, ⟨[0x1B], [0x00], [0x00], .escape, rfl, rfl⟩⟩
  rw [escape_eq_flatMap, List.mem_flatMap] at hb
  obtain ⟨c, _, hbc⟩ := hb
  exact eq_esc_of_mem_escapeByte hbc ((isCtrl_iff b).mpr hc)

/-! ### Unescaping -/

/-- An ESC takes the next byte as data with bit 7 cleared (R127). -/
theorem unescape_esc_cons (x : Byte) (s : List Byte) :
    unescape (Const.esc :: x :: s) = consOk (x &&& 0x7F) (unescape s) := by
  rw [unescape, if_pos rfl]

/-- A byte is put before an answer only: what succeeds begins with it. -/
theorem consOk_eq_ok {b : Byte} {r : Except Raise (List Byte)} {u : List Byte} (h : consOk b r = .ok u) :
    ∃ v, r = .ok v ∧ u = b :: v := by
  cases r with
  | ok v => exact ⟨v, rfl, by simpa [consOk] using h.symm⟩
  | error e => cases h

/-- An error passes `consOk` unchanged. -/
theorem consOk_eq_error {b : Byte} {r : Except Raise (List Byte)} {e : Raise} (h : consOk b r = .error e) :
    r = .error e := by
  cases r with
  | ok v => cases h
  | error e' => exact h

/-- `consOk` is the map of `Except` that puts a byte in front. -/
theorem consOk_eq_map (b : Byte) (r : Except Raise (List Byte)) : consOk b r = r.map (b :: ·) := by
  cases r <;> rfl

/-- What follows a sequence that unescapes is unescaped on its own (R127). -/
theorem unescape_append {s u : List Byte} (t : List Byte) (h : unescape s = .ok u) :
    unescape (s ++ t) = (unescape t).map (u ++ ·) := by
  fun_induction unescape s generalizing u with
  | case1 =>
    cases h
    rw [List.nil_append]
    cases unescape t <;> rfl
  | case2 => cases h
  | case3 b hb =>
    cases h
    exact (unescape_cons_of_ne hb t).trans (consOk_eq_map b _)
  | case4 x s ih =>
    obtain ⟨v, hv, rfl⟩ := consOk_eq_ok h
    rw [List.cons_append, List.cons_append, unescape_esc_cons, ih hv]
    cases unescape t <;> rfl
  | case5 b x s hb ih =>
    obtain ⟨v, hv, rfl⟩ := consOk_eq_ok h
    rw [List.cons_append, unescape_cons_of_ne hb, ih hv]
    cases unescape t <;> rfl

/-- A sequence that does not unescape ends in an ESC after one that does (R128). -/
theorem eq_append_esc_of_unescape_error {s : List Byte} {e : Raise} (h : unescape s = .error e) :
    ∃ p u, s = p ++ [Const.esc] ∧ unescape p = .ok u := by
  fun_induction unescape s with
  | case1 => cases h
  | case2 => exact ⟨[], [], rfl, rfl⟩
  | case3 => cases h
  | case4 x s ih =>
    obtain ⟨p, u, rfl, hp⟩ := ih (consOk_eq_error h)
    exact ⟨Const.esc :: x :: p, _, rfl, by rw [unescape_esc_cons, hp, consOk]⟩
  | case5 b x s hb ih =>
    obtain ⟨p, u, hs, hp⟩ := ih (consOk_eq_error h)
    exact ⟨b :: p, _, by rw [hs, List.cons_append], by rw [unescape_cons_of_ne hb, hp, consOk]⟩

/-- Settles O6: after a sequence that unescapes, what follows is unescaped on its own. -/
theorem unescapeTakesTheByteAfterEsc : Obligations.UnescapeTakesTheByteAfterEsc := by
  refine ⟨rfl, fun s u h => ⟨unescape_append _ h, fun x => unescape_append _ h, fun x hx => ?_⟩,
    fun s e h => ⟨unescape_error h, eq_append_esc_of_unescape_error h⟩⟩
  rw [unescape_append _ h, unescape_cons_of_ne hx]
  rfl

end Sys2Proof.Machine
end

section
/-! SUPPORT. The packet layer (41_assemble_parse.md): what is in an assembled frame, what `parse` answers by the first check that
fails, and what each reply's parse routine makes of its data. -/

namespace Sys2Proof.Machine

/-! ### The assembled frame -/

/-- A member of an escaped text is none of the control characters but ESC (R129 b). -/
theorem not_marker_of_mem_escape {b : Byte} {s : List Byte} (h : b ∈ escape s) :
    b ∉ ([0x02, 0x03, 0x06, 0x15] : List Byte) := by
  intro hb
  rw [escape_eq_flatMap, List.mem_flatMap] at h
  obtain ⟨c, _, hc⟩ := h
  have hctrl : isCtrl b = true := by
    rw [isCtrl_iff]
    exact List.mem_append_left [0x1B] hb
  rw [eq_esc_of_mem_escapeByte hc hctrl] at hb
  revert hb
  decide

/-- A frame has its two delimiters and at least one byte for each byte of its payload and for the checksum (R141). -/
theorem le_frameOf_length (c : Config) (body : List Byte) : body.length + 3 ≤ (frameOf c body).length := by
  have h := length_le_escape_length (identityBytes c ++ (body ++ [checksum body]))
  simp only [List.length_append, List.length_singleton] at h
  simp only [frameOf, List.length_cons, List.length_append, List.length_nil]
  omega

/-- What stands between the markers of a frame: no marker, and a sequence that folds to zero once the identity is off (R146). -/
theorem frameOf_inner (c : Config) (body : List Byte) :
    ∃ e, frameOf c body = Const.stx :: (e ++ [Const.etx]) ∧
      (∀ b ∈ e, b ∉ ([0x02, 0x03, 0x06, 0x15] : List Byte)) ∧
      ∃ u p, unescape e = .ok u ∧ stripIdentity c u = .ok p ∧ checksum p = 0 :=
  ⟨_, rfl, fun _ => not_marker_of_mem_escape, _, _, unescape_escape _, stripIdentity_identityBytes_append c _,
    checksum_append_checksum body⟩

/-- Settles O7: what `assemble` answers is the frame of an opcode with its data. -/
theorem assembledFrameShape : Obligations.AssembledFrameShape := by
  intro c cmd a f h
  have hmax := assemble_length_le h
  rcases assemble_cases c cmd a with ⟨d, _, _, e⟩ | ⟨_, e⟩ | ⟨_, _, e⟩ <;> rw [e] at h <;> cases h
  have hmin := le_frameOf_length c ((registry c cmd).opcode :: d)
  rw [List.length_cons] at hmin
  exact ⟨by omega, hmax, frameOf_inner c _⟩

/-! ### The checks of `parse` -/

/-- A frame has a body exactly when it stands between its two markers (R151). -/
theorem frameBody_eq_some {f e : List Byte} : frameBody f = some e ↔ f = Const.ack :: (e ++ [Const.etx]) := by
  constructor
  · intro h
    rw [frameBody] at h
    split at h
    · cases h
    next hm =>
      simp only [not_or, not_not] at hm
      obtain ⟨hlen, hhead, hlast⟩ := hm
      cases h
      obtain ⟨t, rfl⟩ := List.head?_eq_some_iff.1 hhead
      have ht : t ≠ [] := by
        rintro rfl
        simp at hlen
      rw [List.getLast?_cons_of_ne_nil ht] at hlast
      rw [List.tail_cons, List.dropLast_append_getLast? _ hlast]
  · rintro rfl
    exact frameBody_framed e

/-- Without both markers a frame is E_FRAMING with its length (R151). -/
theorem parse_of_not_framed {f : List Byte} (c : Config) (cmd : Cmd) (h : ¬∃ e, f = Const.ack :: (e ++ [Const.etx])) :
    parse c cmd f = .error (.framing f.length) := by
  have hnone : frameBody f = none := by
    rw [Option.eq_none_iff_forall_ne_some]
    exact fun e he => h ⟨e, frameBody_eq_some.1 he⟩
  simp only [parse, hnone]

/-- A framed text that does not unescape is E_ESCAPE (R150). -/
theorem parse_of_unescape_error {e : List Byte} {x : Raise} (c : Config) (cmd : Cmd) (h : unescape e = .error x) :
    parse c cmd (Const.ack :: (e ++ [Const.etx])) = .error .escape := by
  rw [parse, frameBody_framed]
  simp only [h, unescape_error h]

/-- A framed text of no bytes is E_LENGTH, with an identity to strip or without (R150, R152). -/
theorem parse_of_unescape_nil {e : List Byte} (c : Config) (cmd : Cmd) (h : unescape e = .ok []) :
    parse c cmd (Const.ack :: (e ++ [Const.etx])) = .error (.length 0) := by
  rw [parse, frameBody_framed]
  cases hc : c.hasIdentity <;> simp [h, stripIdentity, hc, parseChecked]

/-- With an identity configured the first byte is dropped, whatever it is (R153). -/
theorem stripIdentity_cons {c : Config} (hc : c.hasIdentity = true) (x : Byte) (p : List Byte) :
    stripIdentity c (x :: p) = .ok p := by
  rw [stripIdentity, if_pos hc]

/-- Without an identity nothing is stripped (R153). -/
theorem stripIdentity_of_none {c : Config} (hc : c.hasIdentity = false) (u : List Byte) : stripIdentity c u = .ok u := by
  simp [stripIdentity, hc]

/-- A payload without room for an opcode and a checksum is E_LENGTH (R152). -/
theorem parseChecked_of_short (d : Descriptor) {p : List Byte} (h : p.length < 2) :
    parseChecked d p = .error (.length p.length) := by
  rw [parseChecked, if_pos h]

/-- A payload that does not fold to zero is E_CHECKSUM with the fold (R154). -/
theorem parseChecked_of_fold (d : Descriptor) {p : List Byte} (hl : 2 ≤ p.length) (h : checksum p ≠ 0) :
    parseChecked d p = .error (.checksum (checksum p)) := by
  rw [parseChecked, if_neg (by omega), if_pos h]

/-- A payload that folds to zero is taken apart without its checksum (R155). -/
theorem parseChecked_of_valid (d : Descriptor) {op k : Byte} {data : List Byte}
    (h : checksum (op :: (data ++ [k])) = 0) : parseChecked d (op :: (data ++ [k])) = parsePayload d (op :: data) := by
  rw [parseChecked, if_neg (by simp), if_neg (by simp [h]), ← List.cons_append, List.dropLast_concat]

/-- Another opcode than the command's is E_OPCODE with both (R156). -/
theorem parsePayload_of_ne (d : Descriptor) {op : Byte} (data : List Byte) (h : op ≠ d.opcode) :
    parsePayload d (op :: data) = .error (.opcode d.opcode op) := by
  rw [parsePayload, if_pos h]

/-- Settles O8: a lemma for each check, the later ones on the payload that the earlier ones left. -/
theorem parseReportsTheFirstFailingCheck : Obligations.ParseReportsTheFirstFailingCheck := by
  intro c cmd
  refine ⟨fun f => parse_of_not_framed c cmd, fun e x => parse_of_unescape_error c cmd,
    fun e => parse_of_unescape_nil c cmd, fun e u p hu hp => ?_⟩
  have hstrip : stripIdentity c u = .ok p := by
    rcases hp with rfl | ⟨hc, y, rfl⟩
    · exact stripIdentity_identityBytes_append c p
    · exact stripIdentity_cons hc y p
  rw [parse_framed cmd hu hstrip]
  refine ⟨parseChecked_of_short _, parseChecked_of_fold _, ?_⟩
  rintro op data k rfl hfold
  rw [parseChecked_of_valid _ hfold]
  refine ⟨parsePayload_of_ne _ data, ?_⟩
  rintro rfl
  exact parsePayload_opcode _ data

/-- The descriptors do not depend on the identity setting (R88). -/
theorem registry_hasIdentity (c : Config) (b : Bool) : registry { c with hasIdentity := b } = registry c := rfl

/-- Settles O10: both replies have the same payload checked, and the descriptor is the same. -/
theorem replyIdentityIsNotCompared : Obligations.ReplyIdentityIsNotCompared := by
  intro c cmd x p e g hc he hg
  calc
    parse c cmd (Const.ack :: (e ++ [Const.etx])) = parseChecked (registry c cmd) p :=
      parse_framed cmd he (stripIdentity_cons hc x p)
    _ = parse { c with hasIdentity := false } cmd (Const.ack :: (g ++ [Const.etx])) := by
      rw [parse_framed cmd hg (stripIdentity_of_none rfl p), registry_hasIdentity c false]

/-! ### The parse routines -/

/-- The fields of ten data bytes and the camera data after them (R157). -/
theorem parseStatus_fields (p0 p1 t0 t1 ps ts gs z f n : Byte) (cam : List Byte) :
    parseStatus (p0 :: p1 :: t0 :: t1 :: ps :: ts :: gs :: z :: f :: n :: cam) =
      .ok (.status ⟨p1 ++ p0, t1 ++ t0, ps, ts, gs, z, f, n, if cam = [] then none else some cam⟩) := rfl

/-- Settles O11: ten bytes are the ten fixed fields, and what follows is the camera data. -/
theorem statusReplyFields : Obligations.StatusReplyFields := by
  intro data
  constructor
  · intro h
    match data, h with
    | p0 :: p1 :: t0 :: t1 :: ps :: ts :: gs :: z :: f :: n :: cam, _ =>
      refine ⟨_, parseStatus_fields p0 p1 t0 t1 ps ts gs z f n cam, rfl, rfl, rfl, rfl, rfl, rfl, rfl, rfl, ?_⟩
      cases cam <;> simp
  · intro h
    unfold parseStatus
    split
    · simp only [List.length_cons] at h
      omega
    · rfl

/-- The value of a timeout byte is its bits 6..0 (R165). -/
theorem timeoutValue_toNat (b : Byte) : (timeoutValue b).toNat = b.toNat % 128 := by
  simp [timeoutValue]

/-- Settles O12: one data byte alone is an answer. -/
theorem timeoutReplyValue : Obligations.TimeoutReplyValue := by
  refine ⟨fun b => ⟨_, rfl, timeoutValue_toNat b⟩, fun data h => ?_⟩
  unfold parseTimeout
  split
  · exact absurd rfl h
  · rfl

/-- Settles O13: HOME_REPLY selects the parse routine. -/
theorem homeReplyByConfiguration : Obligations.HomeReplyByConfiguration := by
  intro c data
  constructor
  · intro hc
    have hk : (registry c .home).replyKind = .rnil := by simp [registry, homeReplyKind, hc]
    rw [hk]
    exact ⟨rfl, fun h => if_neg h⟩
  · intro hc
    have hk : (registry c .home).replyKind = .rs := by simp [registry, homeReplyKind, hc]
    rw [hk]
    rfl

end Sys2Proof.Machine
end

section
/-! SUPPORT. What stops an operation without a frame: an operand that does not encode (R160, R164), and a body that times out
(R187). -/

namespace Sys2Proof.Machine

/-! ### The end of an operation -/

/-- A result after notifications is what the statements call the ended operation (R266). -/
theorem finish_notifyAll (ns : List Notification) (x : Result) (s : State) : finish x (notifyAll ns s) = ended ns x s := by
  simp [finish, State.act, ended, notifyAll_eq]

/-- A result alone ends the operation (R266). -/
theorem finish_eq_ended (x : Result) (s : State) : finish x s = ended [] x s := finish_notifyAll [] x s

/-! ### Commands that send no frame -/

/-- A wire command whose data raises takes the fault, with the fault registers cleared before (R181, R266). -/
theorem issueXact_of_error {c : Cmd} {a : Args} {x : Raise} (h : assembleData c a = .error x) (u : State) :
    issueXact c a u = .next (onFault x (clearFault u)) := by
  simp [issueXact, startXact, assemble, h]

/-- A wire command whose operand is rejected warns the caller and ends (R164, R181, R224). -/
theorem issueXact_of_reject {c : Cmd} {a : Args} (h : assembleData c a = .ok none) (u : State) :
    issueXact c a u = .next (finish .rejected (notify (.tmoRange a.tmo) (clearFault u))) := by
  simp [issueXact, startXact, assemble, h]

/-- E_RANGE ends every operation, as STARTUP does not tolerate it (R227, R255). -/
theorem onFault_range (v : Int) (s : State) :
    onFault (.range v) s = ended [] (.fault (.range v)) { s with faultCode := 5 } := by
  rw [onFault_ends (by simp [tolerated])]
  exact finish_eq_ended _ _

/-- The value encoded for an axis is in range if the operand and the sentinel are (R98). -/
theorem axisValue_mem_range {sent : Int} {o : Option Int} (hs : -32768 ≤ sent ∧ sent ≤ 32767)
    (ho : ∀ w, o = some w → -32768 ≤ w ∧ w ≤ 32767) : -32768 ≤ axisValue sent o ∧ axisValue sent o ≤ 32767 := by
  cases o with
  | none => exact hs
  | some w => exact ho w rfl

/-- The data of a move raises E_RANGE with the operand out of range, pan's before tilt's (R160, R264). -/
theorem moveData_out_of_range {sent v : Int} {pan tilt : Option Int} (hs : -32768 ≤ sent ∧ sent ≤ 32767)
    (hv : v < -32768 ∨ 32767 < v)
    (h : pan = some v ∨ (tilt = some v ∧ ∀ w, pan = some w → -32768 ≤ w ∧ w ≤ 32767)) :
    moveData sent pan tilt = .error (.range v) := by
  have hbad : encodeInt16 (axisValue sent (some v)) = .error (.range v) := encodeInt16_out_of_range hv
  rcases h with rfl | ⟨rfl, hpan⟩
  · simp only [moveData, hbad]
  · obtain ⟨hlow, hhigh⟩ := axisValue_mem_range hs hpan
    simp only [moveData, encodeInt16_of_range hlow hhigh, hbad]

/-- A move command whose data raises E_RANGE ends with it, and nothing is written (R181, R255). -/
theorem issueXact_out_of_range {c : Cmd} {a : Args} {v : Int} (h : assembleData c a = .error (.range v)) (s : State) :
    issueXact c a s =
      .next (ended [] (.fault (.range v)) { s with faultCode := 5, faultExp := 0, faultAct := 0 }) := by
  rw [issueXact_of_error h, onFault_range]
  rfl

/-- Settles O20: both sentinels encode, so the data of either move raises for the operand alone. -/
theorem moveCommandsFaultOutOfRange : Obligations.MoveCommandsFaultOutOfRange := by
  intro s pan tilt v hv h
  have habs : moveData Const.sentinelAbs pan tilt = .error (.range v) := moveData_out_of_range (by decide) hv h
  have hdelta : moveData Const.sentinelDelta pan tilt = .error (.range v) := moveData_out_of_range (by decide) hv h
  exact ⟨issueXact_out_of_range (by simp only [assembleData, habs, Except.map]) s,
    issueXact_out_of_range (by simp only [assembleData, hdelta, Except.map]) s⟩

/-- Settles O21: from 0 to 120 the value is the data byte, and outside there is no data. -/
theorem setTimeoutStartsOrIsRejected : Obligations.SetTimeoutStartsOrIsRejected := by
  intro s t
  constructor
  · intro h0 h120
    have hdata : timeoutData t = some [BitVec.ofInt 8 t] := if_neg (by simp only [Const.tmoMin, Const.tmoMax]; omega)
    have hvalue : ((BitVec.ofInt 8 t).toNat : Int) = t := by
      rw [BitVec.toNat_ofInt]
      omega
    exact ⟨_, hvalue, exec_of_assembleData (i := .setCommunicationTimeout t) rfl (by simp) (congrArg _ hdata) s⟩
  · intro hout
    have hdata : timeoutData t = none := if_pos hout
    calc
      exec (.setCommunicationTimeout t) s = .next (finish .rejected (notify (.tmoRange t) (clearFault s))) :=
        issueXact_of_reject (congrArg _ hdata) s
      _ = .next (ended [.tmoRange t] .rejected (clearFault s)) :=
        congrArg _ (finish_notifyAll [.tmoRange t] .rejected (clearFault s))

/-! ### A timeout in the body -/

/-- A body without an ETX after its first byte does not end in one (R187). -/
theorem readSeq_not_framed {m : Memory} {n : Nat} (h : ∀ a, 1 ≤ a → a < n → m.read a ≠ Const.etx) :
    ¬∃ e, m.readSeq 0 n = Const.ack :: (e ++ [Const.etx]) := by
  rintro ⟨e, he⟩
  have hlen : n = e.length + 2 := by simpa using congrArg List.length he
  subst hlen
  rw [Memory.readSeq_succ, ← List.cons_append, List.append_singleton_inj] at he
  obtain ⟨_, hlast⟩ := he
  rw [Nat.zero_add] at hlast
  exact h _ (by omega) (by omega) hlast

/-- A transaction that is completed on a body without its ETX takes E_FRAMING (R151, R189). -/
theorem complete_not_framed {s : State} (hlen : s.rxLen ≤ s.cfg.rxBufLen)
    (h : ¬∃ e, s.rxBuf.readSeq 0 s.rxLen = Const.ack :: (e ++ [Const.etx])) :
    complete s = .next (onFault (.framing s.rxLen) s) := by
  have hp := parse_of_not_framed s.cfg s.curCmd h
  rw [Memory.readSeq_length] at hp
  simp only [complete, frameIn_of_le s.rxBuf hlen, hp]

/-- E_FRAMING ends every operation but STARTUP (R266, R227). -/
theorem onFault_framing {s : State} (h : s.op ≠ hostOpCode .startup) (n : Nat) :
    onFault (.framing n) s = ended [] (.fault (.framing n)) { s with faultCode := 1 } := by
  rw [onFault_ends (fun ⟨hop, _⟩ => h hop)]
  exact finish_eq_ended _ _

/-- Settles O42: by the invariant the accumulated bytes do not end in an ETX. -/
theorem bodyTimeoutIsAFramingFault : Obligations.BodyTimeoutIsAFramingFault := by
  intro s q hinv hr hp hq
  obtain ⟨_, hroom, _, hetx⟩ := hinv.body hp
  have hstep : step s = .next (onFault (.framing s.rxLen) (takeAnswer none q s)) :=
    (step_of_body hr hp hq).trans
      (complete_not_framed (s := takeAnswer none q s) (Nat.le_of_lt hroom) (readSeq_not_framed hetx))
  refine ⟨_, rfl, hstep, fun hop => hstep.trans (congrArg _ ?_)⟩
  exact onFault_framing (s := takeAnswer none q s) hop s.rxLen

end Sys2Proof.Machine
end

section
/-! SUPPORT. The small steps of a transaction, one equation per kind of answer (R182 to R188), the runtime update of its reply
(R190), and the statements about them. -/

namespace Sys2Proof.Machine

/-! ### The fault handler outside STARTUP -/

/-- Outside STARTUP every fatal fault ends the operation (R266). -/
theorem onFault_of_not_startup {s : State} (h : s.op ≠ hostOpCode .startup) (e : Raise) :
    onFault e s = ended [] (.fault e) (recordFault e s) := by
  rw [onFault_ends (fun ⟨hop, _⟩ => h hop), finish_eq_ended]

/-! ### The bounds of R8 -/

/-- A bound is not reached where it allows one more (R186). -/
theorem reached_eq_false {b : Option Nat} {n : Nat} (h : ∀ m, b = some m → n < m) : reached b n = false := by
  cases b with
  | none => rfl
  | some m => exact decide_eq_false (Nat.not_le.2 (h m rfl))

/-- A bound is reached by a count that is not below it (R186). -/
theorem reached_of_le {b : Option Nat} {n m : Nat} (hb : b = some m) (h : m ≤ n) : reached b n = true := by
  subst hb
  exact decide_eq_true h

/-! ### The acknowledgment wait -/

/-- The answer of a no-response after `win` discarded bytes: a read timeout, or the byte other than ACK that exhausts the window
(R183, R185). -/
def IsNoResponse (a : Option Byte) (win : Nat) : Prop :=
  a ≠ some Const.ack ∧ (a ≠ none → Const.ackWindow ≤ win + 1)

/-- A state with another count of discarded bytes (R183). -/
def State.withWin (s : State) (w : Nat) : State := { s with win := w }

/-- The state R184 leaves when the ACK has been read in `s`. -/
def opened (s : State) : State := { s with rxBuf := s.rxBuf.write 0 Const.ack, rxLen := 1, phase := .body }

/-- The state R185 leaves when `f` has been written again in `s`, and a new window is open. -/
def resent (f : List Byte) (s : State) : State :=
  { txWrite f s with attempt := s.attempt + 1, rxLen := 0, win := 0, phase := .ackWait }

/-- An answer in the acknowledgment wait is the ACK, a byte that is discarded, or a no-response (R182 to R185). -/
theorem ackAnswer_cases (a : Option Byte) (win : Nat) :
    a = some Const.ack ∨ (∃ b, a = some b ∧ b ≠ Const.ack ∧ win + 1 < Const.ackWindow) ∨ IsNoResponse a win := by
  cases a with
  | none => exact .inr (.inr ⟨by simp, fun h => absurd rfl h⟩)
  | some b =>
    by_cases hb : b = Const.ack
    · exact .inl (congrArg some hb)
    · by_cases hw : win + 1 < Const.ackWindow
      · exact .inr (.inl ⟨b, rfl, hb, hw⟩)
      · exact .inr (.inr ⟨by simpa using hb, fun _ => Nat.le_of_not_lt hw⟩)

section
variable {s : State} {a : Option Byte} {b : Byte} {q : List (Option Byte)}

/-- The ACK opens the frame (R184). -/
theorem step_of_ack (hr : s.resetIn = false) (hp : s.phase = .ackWait) (hq : s.rxs = some Const.ack :: q) :
    step s = ackSeen (takeAnswer (some Const.ack) q s) := step_of_ackWait hr hp hq

theorem ackSeen_of_room (h : 0 < s.cfg.rxBufLen) : ackSeen s = .next (opened s) := if_pos h

/-- Another byte is discarded and counted while the window lasts (R183). -/
theorem step_of_discard (hr : s.resetIn = false) (hp : s.phase = .ackWait) (hq : s.rxs = some b :: q) (hb : b ≠ Const.ack)
    (hw : s.win + 1 < Const.ackWindow) : step s = .next ((takeAnswer (some b) q s).withWin (s.win + 1)) :=
  calc
    step s = onAckAnswer (some b) (takeAnswer (some b) q s) := step_of_ackWait hr hp hq
    _ = nonAck (takeAnswer (some b) q s) := if_neg hb
    _ = .next ((takeAnswer (some b) q s).withWin (s.win + 1)) := if_pos hw

/-- A no-response goes to `NoResponse()`, whatever `win` has then been counted to (R185; log entry 16). -/
theorem step_of_noResponse (hr : s.resetIn = false) (hp : s.phase = .ackWait) (hq : s.rxs = a :: q)
    (ha : IsNoResponse a s.win) : ∃ w, step s = noResponse ((takeAnswer a q s).withWin w) := by
  obtain ⟨hack, hwin⟩ := ha
  rw [step_of_ackWait hr hp hq]
  cases a with
  | none => exact ⟨s.win, rfl⟩
  | some b =>
    have hb : b ≠ Const.ack := fun h => hack (congrArg some h)
    exact ⟨s.win + 1, (if_neg hb).trans (if_neg (Nat.not_lt.2 (hwin (by simp))))⟩

/-- A no-response that the bound allows writes the stored frame again (R185). -/
theorem step_of_resend {f : List Byte} (hr : s.resetIn = false) (hp : s.phase = .ackWait) (hq : s.rxs = a :: q)
    (ha : IsNoResponse a s.win) (hb : reached s.cfg.maxSendAttempts s.attempt = false)
    (hf : frameIn Const.txBufLen s.txBuf s.txLen = some f) : step s = .next (resent f (takeAnswer a q s)) := by
  obtain ⟨w, hstep⟩ := step_of_noResponse hr hp hq ha
  rw [hstep]
  simp only [noResponse, State.withWin, takeAnswer_cfg, takeAnswer_attempt, takeAnswer_txBuf, takeAnswer_txLen, hb, hf]
  rfl

/-- A no-response with the attempts used up raises E_NO_RESPONSE (R186). -/
theorem step_of_giveUp (hr : s.resetIn = false) (hp : s.phase = .ackWait) (hq : s.rxs = a :: q)
    (ha : IsNoResponse a s.win) (hb : reached s.cfg.maxSendAttempts s.attempt = true) :
    ∃ w, step s = .next (onFault (.noResponse s.attempt) ((takeAnswer a q s).withWin w)) := by
  obtain ⟨w, hstep⟩ := step_of_noResponse hr hp hq ha
  exact ⟨w, hstep.trans (if_pos hb)⟩

/-! ### The body -/

/-- A byte that does not end the frame is accumulated (R187). -/
theorem step_of_bodyByte (hr : s.resetIn = false) (hp : s.phase = .body) (hq : s.rxs = some b :: q) (hb : b ≠ Const.etx)
    (hroom : s.rxLen + 1 < s.cfg.rxBufLen) : step s = .next (storeRx b (takeAnswer (some b) q s)) :=
  calc
    step s = onBodyAnswer (some b) (takeAnswer (some b) q s) := step_of_body hr hp hq
    _ = _ := if_pos (Nat.lt_of_succ_lt hroom)
    _ = .next (storeRx b (takeAnswer (some b) q s)) := if_neg (not_or.2 ⟨hb, Nat.ne_of_lt hroom⟩)

/-- The first ETX and the byte that fills the buffer end the frame (R187, R188). -/
theorem step_of_lastByte (hr : s.resetIn = false) (hp : s.phase = .body) (hq : s.rxs = some b :: q)
    (hroom : s.rxLen < s.cfg.rxBufLen) (hb : b = Const.etx ∨ s.rxLen + 1 = s.cfg.rxBufLen) :
    step s = complete (storeRx b (takeAnswer (some b) q s)) :=
  calc
    step s = onBodyAnswer (some b) (takeAnswer (some b) q s) := step_of_body hr hp hq
    _ = _ := if_pos hroom
    _ = complete (storeRx b (takeAnswer (some b) q s)) := if_pos hb

/-- The bytes accumulated after a store are those before and the byte stored (R187). -/
theorem storeRx_readSeq (b : Byte) (h : s.rxBuf.wf = true) :
    (storeRx b s).rxBuf.readSeq 0 (storeRx b s).rxLen = s.rxBuf.readSeq 0 s.rxLen ++ [b] := by
  rw [storeRx_rxBuf, storeRx_rxLen, Memory.readSeq_succ, Nat.zero_add, Memory.read_write_same _ _ _ h,
    Memory.readSeq_write_other _ _ _ _ _ (.inr (Nat.le_of_eq (Nat.zero_add _)))]

/-- The frame in `rx_buf` after a store that has room. -/
theorem storeRx_frameIn (b : Byte) (h : s.rxBuf.wf = true) (hroom : s.rxLen < s.cfg.rxBufLen) :
    frameIn (storeRx b s).cfg.rxBufLen (storeRx b s).rxBuf (storeRx b s).rxLen =
      some (s.rxBuf.readSeq 0 s.rxLen ++ [b]) :=
  (frameIn_of_le _ (Nat.succ_le_of_lt hroom)).trans (congrArg some (storeRx_readSeq b h))

/-! ### Complete (R189) -/

/-- A frame that does not parse goes to the fault handler (R189). -/
theorem complete_of_error {f : List Byte} {e : Raise} (hf : frameIn s.cfg.rxBufLen s.rxBuf s.rxLen = some f)
    (he : parse s.cfg s.curCmd f = .error e) : complete s = .next (onFault e s) := by
  simp only [complete, hf, he]

/-- A typed result updates the registers before `Continue` (R189). -/
theorem complete_of_ok {f : List Byte} {r : Reply} (hf : frameIn s.cfg.rxBufLen s.rxBuf s.rxLen = some f)
    (hok : parse s.cfg s.curCmd f = .ok r) : complete s = continueOp r (updateFor r s) := by
  simp only [complete, hf, hok]

/-- A buffer filled by a byte other than ETX completes with E_FRAMING (R188, R151). -/
theorem complete_of_full (hb : b ≠ Const.etx) (h : s.rxBuf.wf = true) (hroom : s.rxLen < s.cfg.rxBufLen) :
    complete (storeRx b s) = .next (onFault (.framing (s.rxLen + 1)) (storeRx b s)) := by
  refine complete_not_framed (s := storeRx b s) hroom ?_
  rintro ⟨e, he⟩
  rw [storeRx_readSeq b h, ← List.cons_append, List.append_singleton_inj] at he
  exact hb he.2

end

/-! ### The obligations about the small steps -/

/-- Settles O35. -/
theorem ackByteOpensTheFrame : Obligations.AckByteOpensTheFrame := by
  intro s q hr hp hq hroom
  exact (step_of_ack hr hp hq).trans (ackSeen_of_room (s := takeAnswer (some Const.ack) q s) hroom)

/-- Settles O36. -/
theorem otherBytesAreDiscardedAndCounted : Obligations.OtherBytesAreDiscardedAndCounted := by
  intro s b q hr hp hq hb hw
  exact step_of_discard hr hp hq hb hw

/-- Settles O37: the answer is a no-response, and the bound is not reached. -/
theorem noResponseResendsTheIdenticalFrame : Obligations.NoResponseResendsTheIdenticalFrame := by
  intro s a q f hr hp hq hack hwin hf hbound
  rw [step_of_resend hr hp hq ⟨hack, fun h => (hwin h).ge⟩ (reached_eq_false hbound) hf]
  simp [resent, txWrite, takeAnswer, State.act, hp]

/-- Settles O38: the answer is a no-response, and the bound is reached. -/
theorem lastNoResponseIsAFault : Obligations.LastNoResponseIsAFault := by
  intro s a q n hr hp hq hack hwin hmax hle
  obtain ⟨w, hfault⟩ := step_of_giveUp hr hp hq ⟨hack, fun h => (hwin h).ge⟩ (reached_of_le hmax hle)
  refine ⟨w, _, rfl, hfault, fun hop => hfault.trans (congrArg _ ?_)⟩
  exact onFault_of_not_startup (s := (takeAnswer a q s).withWin w) hop _

/-- Settles O39. -/
theorem bodyBytesAreAccumulated : Obligations.BodyBytesAreAccumulated := by
  intro s b q hr hp hq hb hroom
  exact step_of_bodyByte hr hp hq hb hroom

/-- Settles O40: the ETX completes the transaction on the bytes accumulated and itself. -/
theorem etxHandsTheFrameToParse : Obligations.EtxHandsTheFrameToParse := by
  intro s q hr hp hq hwf hroom
  have hstep := step_of_lastByte hr hp hq hroom (.inl rfl)
  have hframe := storeRx_frameIn (s := takeAnswer (some Const.etx) q s) Const.etx hwf hroom
  exact ⟨_, rfl, fun e he => hstep.trans (complete_of_error hframe he), fun r hok => hstep.trans (complete_of_ok hframe hok)⟩

/-- Settles O41: the byte that fills the buffer is the last of the frame, and it is no ETX. -/
theorem fullBufferIsAFramingFault : Obligations.FullBufferIsAFramingFault := by
  intro s b q hr hp hq hb hfull hwf
  have hroom : s.rxLen < s.cfg.rxBufLen := by omega
  have hfault := (step_of_lastByte hr hp hq hroom (.inr hfull)).trans
    (complete_of_full (s := takeAnswer (some b) q s) hb hwf hroom)
  rw [← hfull]
  refine ⟨_, rfl, hfault, fun hop => hfault.trans (congrArg _ ?_)⟩
  exact onFault_of_not_startup (s := storeRx b (takeAnswer (some b) q s)) hop _

/-- Settles O43. -/
theorem statusReplyWritesOnePair : Obligations.StatusReplyWritesOnePair := by
  intro s r
  exact ⟨updateRuntime_of_des r s, updateRuntime_of_not_des r s⟩

end Sys2Proof.Machine
end

section
/-! SUPPORT. The small steps of a transaction against the blocking procedure (R192): what a run of them carries along, the run to
the end of the acknowledgment wait, and the run to the end of the body. -/

namespace Sys2Proof.Machine

/-! ### What a run of read answers carries along -/

/-- What no step of a transaction changes before the transaction ends: the configuration, the registers of the operation, the
general registers, and the host's channels. -/
def State.task (s : State) :=
  (s.cfg, s.op, s.stage, s.curCmd, s.genRegs, s.notes, s.results)

@[simp] theorem takeAnswer_task (a : Option Byte) (q : List (Option Byte)) (s : State) :
    (takeAnswer a q s).task = s.task := by simp [State.task, State.genRegs, State.notes, State.results]

@[simp] theorem resent_task (f : List Byte) (s : State) : (resent f s).task = s.task := by
  simp [resent, State.task, State.genRegs, State.notes, State.results]

@[simp] theorem resent_frames (f : List Byte) (s : State) : (resent f s).frames = s.frames ++ [f] := by
  simp [resent, State.frames]

@[simp] theorem resent_attempt (f : List Byte) (s : State) : (resent f s).attempt = s.attempt + 1 := rfl
@[simp] theorem resent_rxs (f : List Byte) (s : State) : (resent f s).rxs = s.rxs := rfl

/-- From `s` to `u` answers were read, and `f` was written once for each new attempt. -/
structure Carries (f : List Byte) (s u : State) : Prop where
  task : u.task = s.task
  attempt : s.attempt ≤ u.attempt
  frames : u.frames = s.frames ++ List.replicate (u.attempt - s.attempt) f
  rxs : u.rxs.length ≤ s.rxs.length

/-- The transaction running in `s` comes to `o`, one step per answer read, with `u` where the last of these has been read. -/
structure RunsTo (f : List Byte) (s u : State) (o : Out) : Prop extends Carries f s u where
  steps : stepN (s.rxs.length - u.rxs.length) s = o

section
variable {f : List Byte} {s t u : State} {o : Out} {a : Option Byte}

/-- An answer is read in the same attempt. -/
theorem Carries.of_answer (hq : s.rxs = a :: u.rxs) (ht : u.task = s.task) (ha : u.attempt = s.attempt)
    (hf : u.frames = s.frames) : Carries f s u :=
  ⟨ht, ha.ge, by simp [ha, hf], by simp [hq]⟩

/-- An answer is read, and the frame is written again (R185). -/
theorem Carries.of_resend (hq : s.rxs = a :: t.rxs) (ht : t.task = s.task) (ha : t.attempt = s.attempt)
    (hf : t.frames = s.frames) : Carries f s (resent f t) :=
  ⟨(resent_task f t).trans ht, by simp [ha], by simp [ha, hf], by simp [hq]⟩

theorem Carries.trans (hst : Carries f s t) (htu : Carries f t u) : Carries f s u := by
  refine ⟨htu.task.trans hst.task, hst.attempt.trans htu.attempt, ?_, htu.rxs.trans hst.rxs⟩
  have hsum : u.attempt - s.attempt = (t.attempt - s.attempt) + (u.attempt - t.attempt) := by
    have := hst.attempt
    have := htu.attempt
    omega
  rw [htu.frames, hst.frames, hsum, List.replicate_add, List.append_assoc]

/-- One answer is one step (R192). -/
theorem RunsTo.one (h : Carries f s u) (hq : s.rxs = a :: u.rxs) (hs : step s = o) : RunsTo f s u o := by
  refine ⟨h, ?_⟩
  rw [hq, List.length_cons, Nat.add_sub_cancel_left, stepN, hs]
  cases o <;> rfl

theorem RunsTo.trans (hst : RunsTo f s t (.next t)) (htu : RunsTo f t u o) : RunsTo f s u o := by
  refine ⟨hst.toCarries.trans htu.toCarries, ?_⟩
  have hsum : s.rxs.length - u.rxs.length = (s.rxs.length - t.rxs.length) + (t.rxs.length - u.rxs.length) := by
    have := hst.rxs
    have := htu.rxs
    omega
  rw [hsum, stepN_add _ _ _ _ hst.steps, htu.steps]

end

/-! ### To the end of the acknowledgment wait -/

section
variable {bound : Option Nat} {a : Option Byte} {b : Byte} {l : List (Option Byte)} {n win : Nat}

theorem blockAck_ack : blockAck bound (some Const.ack :: l) n win = .acked n l := if_pos rfl

theorem blockAck_discard (hb : b ≠ Const.ack) (hw : win + 1 < Const.ackWindow) :
    blockAck bound (some b :: l) n win = blockAck bound l n (win + 1) := (if_neg hb).trans (if_pos hw)

theorem blockAck_noResponse (ha : IsNoResponse a win) : blockAck bound (a :: l) n win =
    if reached bound n then .exhausted n l else blockAck bound l (n + 1) 0 := by
  obtain ⟨hack, hwin⟩ := ha
  cases a with
  | none => rfl
  | some b =>
    have hb : b ≠ Const.ack := fun h => hack (congrArg some h)
    exact (if_neg hb).trans (if_neg (Nat.not_lt.2 (hwin (by simp))))

end

/-- The acknowledgment wait of a transaction that has `f` in `tx_buf`, with room for a reply. -/
structure Awaits (f : List Byte) (s : State) : Prop where
  running : s.resetIn = false
  phase : s.phase = .ackWait
  frame : frameIn Const.txBufLen s.txBuf s.txLen = some f
  form : s.rxBuf.wf = true
  room : 1 < s.cfg.rxBufLen

/-- The end of the blocking acknowledgment loop, in the state that has read its last answer, with what the step of that answer
gives. -/
inductive AckArrives : AckEnd → State → Out → Prop
  | acked (u : State) : AckArrives (.acked u.attempt u.rxs) u (ackSeen u)
  | exhausted (u : State) : AckArrives (.exhausted u.attempt u.rxs) u (.next (onFault (.noResponse u.attempt) u))

section
variable {f : List Byte} {s : State}

theorem Awaits.takeAnswer (h : Awaits f s) (a : Option Byte) (q : List (Option Byte)) : Awaits f (takeAnswer a q s) :=
  ⟨h.running, h.phase, h.frame, h.form, h.room⟩

theorem Awaits.withWin (h : Awaits f s) (w : Nat) : Awaits f (s.withWin w) :=
  ⟨h.running, h.phase, h.frame, h.form, h.room⟩

theorem Awaits.resent (h : Awaits f s) : Awaits f (resent f s) := ⟨h.running, rfl, h.frame, h.form, h.room⟩

/-- The steps of the acknowledgment wait come to where the blocking loop ends (R182 to R186, R192). -/
theorem ackWait_runsTo (h : Awaits f s) (he : blockAck s.cfg.maxSendAttempts s.rxs s.attempt s.win ≠ .waiting) :
    ∃ u o, AckArrives (blockAck s.cfg.maxSendAttempts s.rxs s.attempt s.win) u o ∧ RunsTo f s u o ∧ Awaits f u := by
  generalize hl : s.rxs = l at he ⊢
  induction l generalizing s with
  | nil => exact absurd rfl he
  | cons a l ih =>
    have hcarry (w : Nat) : Carries f s ((takeAnswer a l s).withWin w) :=
      .of_answer hl (takeAnswer_task a l s) rfl (takeAnswer_frames a l s)
    rcases ackAnswer_cases a s.win with rfl | ⟨b, rfl, hb, hw⟩ | hno
    · rw [blockAck_ack]
      exact ⟨_, _, .acked (takeAnswer _ l s), .one (hcarry s.win) hl (step_of_ack h.running h.phase hl), h.takeAnswer _ l⟩
    · rw [blockAck_discard hb hw] at he ⊢
      obtain ⟨u, o, harr, hrun, hu⟩ := ih ((h.takeAnswer (some b) l).withWin (s.win + 1)) rfl he
      exact ⟨u, o, harr, .trans (.one (hcarry _) hl (step_of_discard h.running h.phase hl hb hw)) hrun, hu⟩
    · rw [blockAck_noResponse hno] at he ⊢
      cases hb : reached s.cfg.maxSendAttempts s.attempt with
      | true =>
        obtain ⟨w, hstep⟩ := step_of_giveUp h.running h.phase hl hno hb
        exact ⟨_, _, .exhausted ((takeAnswer a l s).withWin w), .one (hcarry w) hl hstep, (h.takeAnswer a l).withWin w⟩
      | false =>
        rw [hb] at he
        simp only [Bool.false_eq_true, if_false] at he ⊢
        obtain ⟨u, o, harr, hrun, hu⟩ := ih (h.takeAnswer a l).resent rfl he
        have hresend : Carries f s (resent f (takeAnswer a l s)) := .of_resend hl (by simp) rfl (by simp)
        exact ⟨u, o, harr, .trans (.one hresend hl (step_of_resend h.running h.phase hl hno hb h.frame)) hrun, hu⟩

end

/-! ### To the end of the body -/

/-- The body of a frame, with room in `rx_buf`. -/
structure Accumulates (s : State) : Prop where
  running : s.resetIn = false
  phase : s.phase = .body
  form : s.rxBuf.wf = true
  room : s.rxLen < s.cfg.rxBufLen

section
variable {f : List Byte} {s u : State}

/-- The ACK opens a body (R184). -/
theorem Awaits.opened (h : Awaits f s) : Accumulates (opened s) :=
  ⟨h.running, rfl, Memory.wf_write _ _ h.form, h.room⟩

/-- The body begins with the ACK alone (R51, R184). -/
theorem opened_readSeq (h : s.rxBuf.wf = true) : (opened s).rxBuf.readSeq 0 (opened s).rxLen = [Const.ack] :=
  Memory.readSeq_writeSeq s.rxBuf 0 [Const.ack] h

/-- A run to the ACK is a run to the body it opens. -/
theorem RunsTo.opened {o : Out} (h : RunsTo f s u o) : RunsTo f s (opened u) o :=
  ⟨⟨h.task, h.attempt, h.frames, h.rxs⟩, h.steps⟩

theorem Accumulates.storeRx (h : Accumulates s) (b : Byte) (q : List (Option Byte)) (hroom : s.rxLen + 1 < s.cfg.rxBufLen) :
    Accumulates (storeRx b (takeAnswer (some b) q s)) := ⟨h.running, h.phase, Memory.wf_write _ _ h.form, hroom⟩

/-- The steps of the body come to `Complete` with the frame the blocking loop has read (R187, R188, R192). -/
theorem body_runsTo (h : Accumulates s) {rx : List Byte} {left : List (Option Byte)}
    (hb : blockBody s.cfg.rxBufLen s.rxs (s.rxBuf.readSeq 0 s.rxLen) = some (rx, left)) :
    ∃ v, RunsTo f s v (complete v) ∧ frameIn v.cfg.rxBufLen v.rxBuf v.rxLen = some rx ∧ v.rxs = left ∧
      v.attempt = s.attempt := by
  generalize hl : s.rxs = l at hb
  induction l generalizing s with
  | nil => cases hb
  | cons a l ih =>
    cases a with
    | none =>
      obtain ⟨rfl, rfl⟩ := (Prod.mk.inj (Option.some.inj hb))
      exact ⟨takeAnswer none l s, .one (.of_answer hl (by simp) rfl (by simp)) hl (step_of_body h.running h.phase hl),
        frameIn_of_le _ h.room.le, rfl, rfl⟩
    | some b =>
      have hcarry : Carries f s (storeRx b (takeAnswer (some b) l s)) :=
        .of_answer hl (takeAnswer_task (some b) l s) rfl (takeAnswer_frames (some b) l s)
      rw [blockBody, Memory.readSeq_length] at hb
      by_cases hlast : b = Const.etx ∨ s.rxLen + 1 = s.cfg.rxBufLen
      · rw [if_pos hlast] at hb
        obtain ⟨rfl, rfl⟩ := Prod.mk.inj (Option.some.inj hb)
        exact ⟨_, .one hcarry hl (step_of_lastByte h.running h.phase hl h.room hlast),
          storeRx_frameIn (s := takeAnswer (some b) l s) b h.form h.room, rfl, rfl⟩
      · have hread : _ = s.rxBuf.readSeq 0 s.rxLen ++ [b] := storeRx_readSeq (s := takeAnswer (some b) l s) b h.form
        rw [if_neg hlast, ← hread] at hb
        obtain ⟨hetx, hfull⟩ := not_or.1 hlast
        have hroom : s.rxLen + 1 < s.cfg.rxBufLen := Nat.lt_of_le_of_ne h.room hfull
        obtain ⟨v, hrun, hframe, hleft, hatt⟩ := ih (h.storeRx b l hroom) rfl hb
        exact ⟨v, .trans (.one hcarry hl (step_of_bodyByte h.running h.phase hl hetx hroom)) hrun, hframe, hleft, hatt⟩

end

/-! ### The transaction -/

section
variable {c : Config} {l left : List (Option Byte)} {n : Nat} {rx f : List Byte} {s u : State}

theorem blockXact_eq_framed (h : blockXact c l = .framed n rx left) : ∃ rest,
    blockAck c.maxSendAttempts l 1 0 = .acked n rest ∧ blockBody c.rxBufLen rest [Const.ack] = some (rx, left) := by
  rw [blockXact] at h
  split at h
  next => cases h
  next => cases h
  next m rest hack =>
    split at h
    next => cases h
    next hbody =>
      cases h
      exact ⟨rest, hack, hbody⟩

theorem blockXact_eq_silent (h : blockXact c l = .silent n left) :
    blockAck c.maxSendAttempts l 1 0 = .exhausted n left := by
  rw [blockXact] at h
  split at h
  next => cases h
  next hack =>
    cases h
    exact hack
  next => split at h <;> cases h

/-- What a run from the first attempt has carried along, part by part. -/
theorem Carries.parts (h : Carries f s u) (ha : s.attempt = 1) :
    u.frames = s.frames ++ List.replicate (u.attempt - 1) f ∧ u.notes = s.notes ∧ u.results = s.results ∧
      u.genRegs = s.genRegs ∧ u.op = s.op ∧ u.stage = s.stage ∧ u.curCmd = s.curCmd ∧ u.cfg = s.cfg := by
  have htask := h.task
  simp only [State.task, Prod.mk.injEq] at htask
  obtain ⟨hcfg, hop, hstage, hcmd, hregs, hnotes, hresults⟩ := htask
  exact ⟨ha ▸ h.frames, hnotes, hresults, hregs, hop, hstage, hcmd, hcfg⟩

end

/-- Settles O60: the run to the end of the acknowledgment wait, and from an ACK on to the end of the body. -/
theorem stepsAgreeWithTheBlockingTransaction : Obligations.StepsAgreeWithTheBlockingTransaction := by
  intro s n f left hinv hr hp hatt hwin hf
  obtain ⟨_, _, hfloor⟩ := bounds_of_valid hinv.config
  have hawait : Awaits f s := ⟨hr, hp, hf, hinv.rxForm, Nat.lt_of_lt_of_le (by decide) hfloor⟩
  have hack := ackWait_runsTo hawait
  rw [hatt, hwin] at hack
  constructor
  · intro rx hx
    obtain ⟨rest, hend, hbody⟩ := blockXact_eq_framed hx
    rw [hend] at hack
    obtain ⟨u, o, harr, hrun, hu⟩ := hack (by simp)
    cases harr
    rw [ackSeen_of_room (Nat.lt_of_succ_lt hu.room)] at hrun
    obtain ⟨_, _, _, _, _, _, _, hcfg⟩ := hrun.toCarries.parts hatt
    rw [← hcfg, ← opened_readSeq hu.form] at hbody
    obtain ⟨v, hrest, hframe, hleft, hn⟩ := body_runsTo hu.opened hbody
    have hall := hrun.opened.trans hrest
    exact ⟨v, hleft ▸ hall.steps, hframe, hleft, hn, hn ▸ hall.toCarries.parts hatt⟩
  · intro hx
    rw [blockXact_eq_silent hx] at hack
    obtain ⟨u, o, harr, hrun, _⟩ := hack (by simp)
    cases harr
    exact ⟨u, hrun.steps, rfl, rfl, hrun.toCarries.parts hatt⟩

end Sys2Proof.Machine
end

section
/-! SUPPORT. Accepting a host operation (R210 to R229): the first transaction starts, or the operation ends in the same step. -/

namespace Sys2Proof.Machine

/-! ### Operations that start -/

/-- Settles O22: each operation accepts, and the data of its first command is a row of the table. -/
theorem plainOperationsStart : Obligations.PlainOperationsStart := by
  intro s
  exact ⟨exec_of_assembleData (i := .opStartup) rfl (by simp) rfl s,
    exec_of_assembleData (i := .opGetStatus) rfl (by simp) rfl s,
    exec_of_assembleData (i := .opFaultReset) rfl (by simp) rfl s,
    exec_of_assembleData (i := .opHome) rfl (by simp) rfl s,
    exec_of_assembleData (i := .opGetTmo) rfl (by simp) rfl s⟩

/-- Settles O23: two operands that encode are the data of the operation's move command. -/
theorem moveOperationsStart : Obligations.MoveOperationsStart := by
  intro s pan tilt p t
  exact ⟨fun hp ht => exec_of_assembleData (i := .opMoveAbsolute pan tilt) rfl (by simp) (moveData_map_of_ok hp ht) s,
    fun hp ht => exec_of_assembleData (i := .opMoveDelta pan tilt) rfl (by simp) (moveData_map_of_ok hp ht) s⟩

/-! ### Operations that end when they are accepted -/

/-- Settles O24: the data of the move command raises for the operand, in the state the acceptance leaves. -/
theorem moveOperationsFaultOutOfRange : Obligations.MoveOperationsFaultOutOfRange := by
  intro s pan tilt v hv h
  have habs : moveData Const.sentinelAbs pan tilt = .error (.range v) := moveData_out_of_range (by decide) hv h
  have hdelta : moveData Const.sentinelDelta pan tilt = .error (.range v) := moveData_out_of_range (by decide) hv h
  exact ⟨issueXact_out_of_range (by simp only [assembleData, habs, Except.map]) (accept (hostOpCode .moveAbsolute) s),
    issueXact_out_of_range (by simp only [assembleData, hdelta, Except.map]) (accept (hostOpCode .moveDelta) s)⟩

/-- The end of an operation writes nothing to `tx` (R6). -/
theorem ended_txStream (ns : List Notification) (x : Result) (s : State) : (ended ns x s).txStream = s.txStream := by
  simp [State.txStream, ended, List.flatMap_map]

/-- Settles O26: the code is accepted, and E_UNSUPPORTED ends the operation before any transaction. -/
theorem unassignedCodesFault : Obligations.UnassignedCodesFault := by
  intro s code _
  rw [exec_opUnsupported, finish_eq_ended]
  exact ⟨_, rfl, rfl, rfl, ended_txStream _ _ _, by simp [ended], rfl, rfl, rfl⟩

/-! ### SET_TMO -/

/-- From 0 to 120 the value itself is the data byte (R164). -/
theorem timeoutData_of_range {v : Int} (h0 : 0 ≤ v) (h120 : v ≤ 120) : timeoutData v = some [BitVec.ofInt 8 v] :=
  if_neg (by simp only [Const.tmoMin, Const.tmoMax]; omega)

/-- SET_TMO whose set command has data starts it and keeps the request (R224). -/
theorem execOpSetTmo_of_data {v : Int} {d : List Byte} (h : timeoutData v = some d) (s : State) :
    execOpSetTmo v s = .next (sent .setCommunicationTimeout (frameOf s.cfg (0x96 :: d))
      { accept (hostOpCode .setTmo) s with reqTmo := BitVec.ofInt 7 v }) := by
  have ha : assemble s.cfg .setCommunicationTimeout ⟨none, none, v⟩ = .ok (some (frameOf s.cfg (0x96 :: d))) := by
    simp [assemble, assembleData, h, registry]
  simp only [execOpSetTmo, startXact, accept_cfg, ha]
  rfl

/-- SET_TMO whose set command has no data notifies the request and is rejected (R224). -/
theorem execOpSetTmo_of_no_data {v : Int} (h : timeoutData v = none) (s : State) :
    execOpSetTmo v s = .next (ended [.tmoRange v] .rejected (clearFault (accept (hostOpCode .setTmo) s))) := by
  have ha : assemble s.cfg .setCommunicationTimeout ⟨none, none, v⟩ = .ok none := by simp [assemble, assembleData, h]
  simp only [execOpSetTmo, startXact, accept_cfg, ha]
  exact congrArg _ (finish_notifyAll [.tmoRange v] .rejected _)

/-- Settles O25: both the data byte and the 7-bit register hold a value from 0 to 120 exactly. -/
theorem setTmoStartsOrIsRejected : Obligations.SetTmoStartsOrIsRejected := by
  intro s v
  constructor
  · intro h0 h120
    have hbyte : ((BitVec.ofInt 8 v).toNat : Int) = v := by
      rw [BitVec.toNat_ofInt]
      omega
    have hreq : ((BitVec.ofInt 7 v).toNat : Int) = v := by
      rw [BitVec.toNat_ofInt]
      omega
    exact ⟨_, _, hbyte, hreq, execOpSetTmo_of_data (timeoutData_of_range h0 h120) s⟩
  · intro hout
    exact execOpSetTmo_of_no_data (if_pos hout) s

end Sys2Proof.Machine
end

section
/-! SUPPORT. Fault classification (R216, R217): the two lists hold the active flags, in the order of the rules. -/

namespace Sys2Proof.Machine

/-- Choosing among the flags of both axes, pan before tilt, is choosing among each axis's flags (R217). -/
theorem filter_axes {α : Type} {l : List α} {q : Axis × α → Bool} {p t : α → Bool} (hp : ∀ f, q (.pan, f) = p f)
    (ht : ∀ f, q (.tilt, f) = t f) :
    (l.map (fun f => (Axis.pan, f)) ++ l.map (fun f => (Axis.tilt, f))).filter q =
      (l.filter p).map (fun f => (Axis.pan, f)) ++ (l.filter t).map (fun f => (Axis.tilt, f)) := by
  simp only [List.filter_append, List.filter_map, Function.comp_def, hp, ht]

/-- Every limit flag is listed (R216). -/
theorem mem_softFlags (l : Layout) (f : SoftFlag) : f ∈ softFlags l := by
  have hpos : ∀ n : Fin 8, n ∈ positions := by decide
  have hname : f ∈ softNames := by cases f <;> decide
  exact List.mem_flatMap.2 ⟨softPos l f, hpos _, List.mem_filter.2 ⟨hname, beq_self_eq_true _⟩⟩

/-- The limit flags are listed once each, by ascending position (R217): so are the positions, and at one position the flags are
some of R216's. -/
theorem softFlags_pairwise (l : Layout) : (softFlags l).Pairwise (fun f g => f ≠ g ∧ softPos l f ≤ softPos l g) := by
  have hat : ∀ {n f}, f ∈ softNames.filter (fun f => softPos l f == n) → softPos l f = n :=
    fun h => eq_of_beq (List.mem_filter.1 h).2
  have hnames : softNames.Nodup := by decide
  have hascending : positions.Pairwise (· < ·) := by decide
  refine List.pairwise_flatMap.2 ⟨fun n _ => ?_, hascending.imp fun {m n} hmn f hf g hg => ?_⟩
  · exact (hnames.filter _).imp_of_mem fun hf hg hne => ⟨hne, le_of_eq ((hat hf).trans (hat hg).symm)⟩
  · have hlt : softPos l f < softPos l g := by rwa [hat hf, hat hg]
    exact ⟨fun e => absurd (congrArg (softPos l) e) (ne_of_lt hlt), le_of_lt hlt⟩

/-- Where the layout places the limit flags in the order R216 writes them, they are listed in that order (log entry 22): both
lists ascend, and hold the same flags. -/
theorem softFlags_eq_softNames {l : Layout} (h : softNames.Pairwise (fun f g => softPos l f < softPos l g)) :
    softFlags l = softNames := by
  have hnames : softNames.Nodup := by decide
  have hinj : ∀ f ∈ softNames, ∀ g ∈ softNames, softPos l f = softPos l g → f = g := fun f hf g hg e =>
    List.inj_on_of_nodup_map (List.pairwise_map.2 (h.imp ne_of_lt)) hf hg e
  have hall : ∀ f, f ∈ softNames := fun f => by cases f <;> decide
  have hperm : (softFlags l).Perm softNames :=
    (List.perm_ext_iff_of_nodup ((softFlags_pairwise l).imp And.left) hnames).2 fun f =>
      iff_of_true (mem_softFlags l f) (hall f)
  exact hperm.eq_of_pairwise (fun f g _ _ hfg hgf => hinj f (hall f) g (hall g) (le_antisymm hfg hgf))
    ((softFlags_pairwise l).imp And.right) (h.imp le_of_lt)

/-- The active limit flags of an axis byte (R216). -/
theorem mem_active_softFlags (l : Layout) (b : Byte) (f : SoftFlag) :
    f ∈ (softFlags l).filter (fun f => bitAt b (softPos l f)) ↔ b.getLsbD (softPos l f) = true := by
  rw [List.mem_filter]
  exact and_iff_right (mem_softFlags l f)

/-- Settles O45: each list is a choice of flags from a list in the order of the rules. -/
theorem classifyListsTheActiveFlags : Obligations.ClassifyListsTheActiveFlags := by
  intro c ps ts
  refine ⟨(filter_axes (l := hardFlags) ?_ ?_).symm, fun pos hha hhb hsa hsb => ?_⟩
  · exact fun f => by cases f <;> rfl
  · exact fun f => by cases f <;> rfl
  obtain rfl : pos = softPos c.layout := funext fun f => by cases f <;> assumption
  refine ⟨fun hab hbc hcd => ?_, ?_⟩
  · have hnames : softFlags c.layout = softNames := softFlags_eq_softNames (by
      simp only [softNames, List.pairwise_cons, List.mem_cons, List.not_mem_nil, or_false, forall_eq_or_imp, forall_eq,
        false_implies, implies_true, List.Pairwise.nil, and_true]
      exact ⟨⟨hab, hab.trans hbc, (hab.trans hbc).trans hcd⟩, ⟨hbc, hbc.trans hcd⟩, hcd⟩)
    rw [classifySoft, axisSoft, axisSoft, hnames]
    refine (filter_axes (l := softNames) ?_ ?_).symm <;> exact fun _ => rfl
  · have hactive := fun b : Byte => (softFlags_pairwise c.layout).filter (fun f => bitAt b (softPos c.layout f))
    exact ⟨_, _, rfl, mem_active_softFlags c.layout ps, (hactive ps).imp And.left, (hactive ps).imp And.right,
      mem_active_softFlags c.layout ts, (hactive ts).imp And.left, (hactive ts).imp And.right⟩

end Sys2Proof.Machine
end

section
/-! SUPPORT. What follows a completed transaction (R212 to R226): one equation per row of R212's table, and the outcomes of a
completion poll, a fault reset and a read-back. -/

namespace Sys2Proof.Machine

/-! ### The transactions that `Continue` starts -/

/-- A poll starts with the frame of `get_status` (R158, R181). -/
theorem issueXact_getStatus_sent (s : State) :
    issueXact .getStatus Args.empty s = .next (sent .getStatus (frameOf s.cfg [0x31, 0, 0, 0, 0, 0]) s) :=
  issueXact_getStatus s

/-- A read-back starts with the frame of `get_communication_timeout` (R163, R181). -/
theorem issueXact_getCommunicationTimeout_sent (s : State) : issueXact .getCommunicationTimeout Args.empty s =
    .next (sent .getCommunicationTimeout (frameOf s.cfg [0x96, 0x80]) s) :=
  issueXact_getCommunicationTimeout s

/-! ### The outcomes of a reply -/

/-- The faults that end a move (R219 a). -/
theorem pollAborts_iff (c : Config) (hard : List (Axis × HardFlag)) (soft : List (Axis × SoftFlag)) :
    pollAborts c hard soft = true ↔ hard ≠ [] ∨ (c.softFaultAborts = true ∧ soft ≠ []) := by
  simp [pollAborts]

section
variable {s : State} {r : StatusResponse} {hard : List (Axis × HardFlag)} {soft : List (Axis × SoftFlag)}

/-- A poll is judged by its faults first, then by EXEC (R219). -/
theorem continuePoll_eq (hhard : hard = classifyHard s.cfg r.panStatus r.tiltStatus)
    (hsoft : soft = classifySoft s.cfg r.panStatus r.tiltStatus) :
    continuePoll r s = .next (
      if pollAborts s.cfg hard soft then ended (faultNotes hard soft) (.moveDone false r hard soft) s
      else if execBit s.cfg r.generalStatus then sent .getStatus (frameOf s.cfg [0x31, 0, 0, 0, 0, 0]) s
      else ended [] (.moveDone true r hard soft) s) := by
  subst hhard hsoft
  simp only [continuePoll, finish_notifyAll]
  simp only [finish_eq_ended, issueXact_getStatus_sent]
  split_ifs <;> rfl

/-- `FAULT_RESET` succeeds where no hard fault is left (R221). -/
theorem continueReset_of_clear (h : classifyHard s.cfg r.panStatus r.tiltStatus = []) :
    continueReset r s = .next (ended [] (.okReset true r []) s) := by
  rw [continueReset, h, finish_eq_ended]
  rfl

/-- `FAULT_RESET` notifies the hard faults that are left (R221). -/
theorem continueReset_of_faults (hhard : hard = classifyHard s.cfg r.panStatus r.tiltStatus) (h : hard ≠ []) :
    continueReset r s = .next (ended [.resetFailed hard] (.okReset false r hard) s) := by
  subst hhard
  exact (if_neg (by simpa using h)).trans (congrArg _ (finish_notifyAll [_] _ s))

end

/-- A read-back equal to the request ends SET_TMO without a notification (R224). -/
theorem continueReadBack_self (s : State) : continueReadBack s.reqTmo s = .next (ended [] (.okTmo s.reqTmo) s) := by
  rw [continueReadBack, if_neg (not_not.2 rfl), finish_eq_ended]

/-- Another value read back is notified (R224). -/
theorem continueReadBack_of_ne {t : BitVec 7} {s : State} (h : t ≠ s.reqTmo) :
    continueReadBack t s = .next (ended [.tmoMismatch s.reqTmo t] (.okTmo t) s) :=
  (if_pos h).trans (congrArg _ (finish_notifyAll [.tmoMismatch s.reqTmo t] _ s))

/-! ### The rows of R212 -/

/-- The operation a code stands for (R100). -/
theorem hostOpOf_of_eq {code : BitVec 4} {o : HostOp} (h : code = hostOpCode o) : hostOpOf code = some o := by
  rw [h, hostOpOf_hostOpCode]

/-- The three move operations are those that poll (R214, R215). -/
theorem polls_of_isMoveOp {code : BitVec 4} (h : isMoveOp code = true) : ∃ o : HostOp, o.polls ∧ hostOpOf code = some o := by
  simp only [isMoveOp, Bool.or_eq_true, beq_iff_eq] at h
  rcases h with (h | h) | h
  · exact ⟨.moveAbsolute, .inl rfl, hostOpOf_of_eq h⟩
  · exact ⟨.moveDelta, .inr (.inl rfl), hostOpOf_of_eq h⟩
  · exact ⟨.home, .inr (.inr rfl), hostOpOf_of_eq h⟩

/-- A move operation goes on by the rows that the three of them share (R212). -/
theorem continueOp_of_isMoveOp {s : State} (h : isMoveOp s.op = true) (r : Reply) :
    continueOp r s = continueMoveOp r s := by
  obtain ⟨o, hpolls, ho⟩ := polls_of_isMoveOp h
  exact continueOp_of_polls hpolls ho r

section
variable {s : State}

/-- A move operation judges a status in its second stage as a poll (R218). -/
theorem continueOp_poll (h : isMoveOp s.op = true) (hs : s.stage = .second) (r : StatusResponse) :
    continueOp (.status r) s = continuePoll r s := by
  rw [continueOp_of_isMoveOp h]
  simp only [continueMoveOp, hs]

/-- `STARTUP` and `GET_STATUS` end with the status (R213, R226). -/
theorem continueOp_status {o : HostOp} (h : o = .startup ∨ o = .getStatus) (ho : hostOpOf s.op = some o)
    (hs : s.stage = .first) (r : StatusResponse) : continueOp (.status r) s = .next (ended [] (.okStatus r) s) := by
  rw [← finish_eq_ended]
  rcases h with rfl | rfl <;> simp only [continueOp, ho, hs]

/-- `FAULT_RESET` judges the status (R221). -/
theorem continueOp_faultReset (ho : hostOpOf s.op = some .faultReset) (hs : s.stage = .first) (r : StatusResponse) :
    continueOp (.status r) s = continueReset r s := by simp only [continueOp, ho, hs]

/-- `GET_TMO` ends with the timeout (R223). -/
theorem continueOp_getTmo (ho : hostOpOf s.op = some .getTmo) (hs : s.stage = .first) (t : BitVec 7) :
    continueOp (.timeout t) s = .next (ended [] (.okTmo t) s) := by
  rw [← finish_eq_ended]
  simp only [continueOp, ho, hs]

/-- `SET_TMO` discards the echo of its set command and reads back (R224). -/
theorem continueOp_setTmo_echo (ho : hostOpOf s.op = some .setTmo) (hs : s.stage = .first) (t : BitVec 7) :
    continueOp (.timeout t) s =
      .next (sent .getCommunicationTimeout (frameOf s.cfg [0x96, 0x80]) { s with stage := .second }) := by
  rw [← issueXact_getCommunicationTimeout_sent { s with stage := .second }]
  simp only [continueOp, ho, continueSetTmo, hs]

/-- `SET_TMO` compares what it has read back (R224). -/
theorem continueOp_setTmo_readBack (ho : hostOpOf s.op = some .setTmo) (hs : s.stage = .second) (t : BitVec 7) :
    continueOp (.timeout t) s = continueReadBack t s := by simp only [continueOp, ho, continueSetTmo, hs]

end

/-! ### The statements -/

/-- Settles O47: both kinds of reply that a move can have start a poll. -/
theorem moveReplyStartsThePolls : Obligations.MoveReplyStartsThePolls := by
  intro s r hop hs hr
  have hmove : continueOp r s = continueMove s := by
    rw [continueOp_of_isMoveOp hop]
    rcases hr with rfl | ⟨x, rfl⟩ <;> simp only [continueMoveOp, hs]
  exact hmove.trans (issueXact_getStatus_sent _)

/-- Settles O48: the faults decide first, and EXEC only where they do not. -/
theorem movePollEndsByFaultsThenExec : Obligations.MovePollEndsByFaultsThenExec := by
  intro s r hard soft hop hs hhard hsoft
  rw [continueOp_poll hop hs, continuePoll_eq hhard hsoft, ← pollAborts_iff]
  refine ⟨fun haborts => congrArg _ (if_pos haborts), fun hclear hsofts => ?_⟩
  have hgo : ¬pollAborts s.cfg hard soft = true := by
    rw [pollAborts_iff]
    rintro (hne | ⟨hsets, hne⟩)
    · exact hne hclear
    · exact hsofts.elim (fun hunset => Bool.false_ne_true (hunset.symm.trans hsets)) hne
  rw [if_neg hgo, hclear]
  exact ⟨fun hexec => congrArg _ (if_neg (ne_true_of_eq_false hexec)), fun hexec => congrArg _ (if_pos hexec)⟩

/-- Settles O49: the hard list decides. -/
theorem faultResetReportsHardFaults : Obligations.FaultResetReportsHardFaults := by
  intro s r hard hop hs hhard
  rw [continueOp_faultReset (hostOpOf_of_eq hop) hs]
  exact ⟨fun hclear => continueReset_of_clear (hhard.symm.trans hclear), continueReset_of_faults hhard⟩

/-- Settles O50: the echo starts the read-back, and the read-back is compared. -/
theorem setTmoComparesTheReadBack : Obligations.SetTmoComparesTheReadBack := by
  intro s t hop
  have ho : hostOpOf s.op = some .setTmo := hostOpOf_of_eq hop
  refine ⟨fun hs => continueOp_setTmo_echo ho hs t, ?_, fun hs hne => ?_⟩
  · rintro hs rfl
    rw [continueOp_setTmo_readBack ho hs, continueReadBack_self]
  · rw [continueOp_setTmo_readBack ho hs, continueReadBack_of_ne hne]

/-- Settles O51: the rows of the three operations end with what the reply holds. -/
theorem plainOperationsReturnTheReply : Obligations.PlainOperationsReturnTheReply := by
  refine fun s hs => ⟨fun r hop => ?_, fun t hop => continueOp_getTmo (hostOpOf_of_eq hop) hs t⟩
  rcases hop with hop | hop
  · exact continueOp_status (o := .startup) (.inl rfl) (hostOpOf_of_eq hop) hs r
  · exact continueOp_status (o := .getStatus) (.inr rfl) (hostOpOf_of_eq hop) hs r

end Sys2Proof.Machine
end

section
/-! SUPPORT. The fault handler under STARTUP (R226, R227). -/

namespace Sys2Proof.Machine

section
variable {s : State} {e : Raise}

/-- STARTUP catches a tolerated fault (R226). -/
theorem onFault_of_tolerated (hop : s.op = hostOpCode .startup) (ht : tolerated e = true) :
    onFault e s = startupRetry e (recordFault e s) := if_pos ⟨hop, ht⟩

/-- The next attempt clears what the fault has recorded (R181, R226). -/
theorem clearFault_recordFault_startupN (e : Raise) (s : State) (n : Nat) :
    clearFault { recordFault e s with startupN := n } = clearFault { s with startupN := n } := by cases e <;> rfl

/-- With attempts left, STARTUP counts one more and begins it (R226). -/
theorem onFault_retries (hop : s.op = hostOpCode .startup) (ht : tolerated e = true)
    (hr : reached s.cfg.startupMaxAttempts s.startupN = false) :
    onFault e s = sent .getStatus (frameOf s.cfg [0x31, 0, 0, 0, 0, 0]) { s with startupN := s.startupN + 1 } := by
  rw [onFault_of_tolerated hop ht, startupRetry_eq, clearFault_recordFault_startupN, recordFault_cfg, recordFault_startupN, hr,
    if_neg Bool.false_ne_true]
  rfl

/-- With the attempts used up, STARTUP ends with E_STARTUP and the code of the last fault (R226, R259). -/
theorem onFault_givesUp (hop : s.op = hostOpCode .startup) (ht : tolerated e = true)
    (hr : reached s.cfg.startupMaxAttempts s.startupN = true) :
    onFault e s = ended [] (.fault (.startup s.startupN (faultCodeOf e))) (recordFault e s) := by
  rw [onFault_of_tolerated hop ht, startupRetry_eq, recordFault_cfg, recordFault_startupN, if_pos hr, finish_eq_ended]

end

/-- The faults of a `get_status` transaction are those STARTUP tolerates, each with its code (R227, R250). -/
theorem tolerated_with_code {e : Raise} {k : BitVec 4}
    (h : ((∃ n, e = .framing n) ∧ k = 1) ∨ ((∃ x, e = .checksum x) ∧ k = 2) ∨ ((∃ x a, e = .opcode x a) ∧ k = 3) ∨
      (e = .escape ∧ k = 6) ∨ ((∃ n, e = .length n) ∧ k = 7) ∨ ((∃ n, e = .noResponse n) ∧ k = 8)) :
    tolerated e = true ∧ faultCodeOf e = k := by
  rcases h with ⟨⟨_, rfl⟩, rfl⟩ | ⟨⟨_, rfl⟩, rfl⟩ | ⟨⟨_, _, rfl⟩, rfl⟩ | ⟨rfl, rfl⟩ | ⟨⟨_, rfl⟩, rfl⟩ | ⟨⟨_, rfl⟩, rfl⟩
  all_goals exact ⟨rfl, rfl⟩

/-- Settles O53: STARTUP catches each of these faults, and the bound decides. -/
theorem startupRetriesToleratedFaults : Obligations.StartupRetriesToleratedFaults := by
  intro s e k hop h
  obtain ⟨ht, rfl⟩ := tolerated_with_code h
  refine ⟨fun hleft => onFault_retries hop ht (reached_eq_false hleft), fun m hm hle => ?_⟩
  rw [onFault_givesUp hop ht (reached_of_le hm hle)]
  exact ⟨rfl, by simp [State.genRegs, ended], by simp [ended]⟩

end Sys2Proof.Machine
end

section
/-! SUPPORT. The fault handler where STARTUP does not catch the fault (R266). -/

namespace Sys2Proof.Machine

section
variable {e : Raise}

/-- A fault that STARTUP does not catch, for the operation or for the fault, is recorded and ends the operation (R266). -/
theorem onFault_of_not_caught {s : State} (h : s.op ≠ hostOpCode .startup ∨ tolerated e = false) :
    onFault e s = ended [] (.fault e) (recordFault e s) := by
  rcases h with hop | ht
  · exact onFault_of_not_startup hop e
  · rw [onFault_ends (fun ⟨_, hcaught⟩ => Bool.false_ne_true (ht.symm.trans hcaught)), finish_eq_ended]

/-- Only E_OPCODE records opcodes; any other fault records its code alone (R253, R266). -/
theorem recordFault_of_ne_opcode (h : ∀ x a, e ≠ .opcode x a) (s : State) :
    recordFault e s = { s with faultCode := faultCodeOf e } := by
  cases e with
  | opcode x a => exact absurd rfl (h x a)
  | _ => rfl

end

/-- Settles O52: the handler ends the operation in the state that records the fault, and E_OPCODE alone records more than
its code. -/
theorem fatalFaultEndsTheOperation : Obligations.FatalFaultEndsTheOperation := by
  intro s e h
  have hends : onFault e s = ended [] (.fault e) (recordFault e s) := onFault_of_not_caught h
  refine ⟨?_, fun hne => ?_⟩
  · rintro x a rfl
    exact hends
  · rw [hends, recordFault_of_ne_opcode hne]
    cases e <;> rfl

end Sys2Proof.Machine
end

section
/-! SUPPORT. The sentinel operand of a move (R98, R305), and the reset input (R290, R292). -/

namespace Sys2Proof.Machine

/-! ### The sentinel operand -/

/-- An explicit sentinel is encoded as the absent operand is (R98, R305). -/
theorem axisValue_sentinel (sent : Int) : axisValue sent (some sent) = axisValue sent none := rfl

/-- The data of a move is the same for the sentinel as for an absent pan operand (R93, R305). -/
theorem moveData_sentinel_pan (sent : Int) (tilt : Option Int) :
    moveData sent (some sent) tilt = moveData sent none tilt := by
  simp only [moveData, axisValue_sentinel]

/-- The data of a move is the same for the sentinel as for an absent tilt operand (R93, R305). -/
theorem moveData_sentinel_tilt (sent : Int) (pan : Option Int) :
    moveData sent pan (some sent) = moveData sent pan none := by
  simp only [moveData, axisValue_sentinel]

/-- The start of a transaction depends on its operands only through the data they assemble to and the timeout a rejection
reports (R141, R181, R224). -/
theorem issueXact_congr {c : Cmd} {a b : Args} (hd : assembleData c a = assembleData c b) (ht : a.tmo = b.tmo) (s : State) :
    issueXact c a s = issueXact c b s := by
  simp only [issueXact, startXact, assemble, hd, ht]

/-- The encoded operands of a move depend on the operands only through its data (R93). -/
theorem encodeAxes_congr {sent : Int} {pan pan' tilt tilt' : Option Int}
    (h : moveData sent pan tilt = moveData sent pan' tilt') : encodeAxes sent pan tilt = encodeAxes sent pan' tilt' := by
  simp only [encodeAxes, h]

/-- Settles O17: on either axis the sentinel gives the data of the absent operand, and the data decides what a move does and
how it is encoded. -/
theorem sentinelOperandIsTheAbsentOperand : Obligations.SentinelOperandIsTheAbsentOperand := by
  intro o s
  have absPan : assembleData .moveAbsolute ⟨some 9999, o, 0⟩ = assembleData .moveAbsolute ⟨none, o, 0⟩ :=
    congrArg (Except.map some) (moveData_sentinel_pan Const.sentinelAbs o)
  have absTilt : assembleData .moveAbsolute ⟨o, some 9999, 0⟩ = assembleData .moveAbsolute ⟨o, none, 0⟩ :=
    congrArg (Except.map some) (moveData_sentinel_tilt Const.sentinelAbs o)
  have deltaPan : assembleData .moveDelta ⟨some 0, o, 0⟩ = assembleData .moveDelta ⟨none, o, 0⟩ :=
    congrArg (Except.map some) (moveData_sentinel_pan Const.sentinelDelta o)
  have deltaTilt : assembleData .moveDelta ⟨o, some 0, 0⟩ = assembleData .moveDelta ⟨o, none, 0⟩ :=
    congrArg (Except.map some) (moveData_sentinel_tilt Const.sentinelDelta o)
  refine ⟨issueXact_congr absPan rfl (accept _ s), issueXact_congr absTilt rfl (accept _ s),
    issueXact_congr deltaPan rfl (accept _ s), issueXact_congr deltaTilt rfl (accept _ s),
    issueXact_congr absPan rfl s, issueXact_congr absTilt rfl s,
    issueXact_congr deltaPan rfl s, issueXact_congr deltaTilt rfl s, ?_, ?_, ?_, ?_⟩
  · exact congrArg (fun d => Code.payload (0x33 :: d)) (encodeAxes_congr (moveData_sentinel_pan Const.sentinelAbs o))
  · exact congrArg (fun d => Code.payload (0x33 :: d)) (encodeAxes_congr (moveData_sentinel_tilt Const.sentinelAbs o))
  · exact congrArg (fun d => Code.payload (0x34 :: d)) (encodeAxes_congr (moveData_sentinel_pan Const.sentinelDelta o))
  · exact congrArg (fun d => Code.payload (0x34 :: d)) (encodeAxes_congr (moveData_sentinel_tilt Const.sentinelDelta o))

/-! ### Reset -/

/-- Settles O54: each register of the reset state is a literal of R35. -/
theorem resetValues : Obligations.ResetValues :=
  ⟨rfl, rfl, rfl, rfl, rfl, rfl, rfl, rfl, rfl, rfl, rfl⟩

/-- The reset input is taken before the event of any phase (R292; log entry 7). -/
theorem step_of_reset {s : State} (hr : s.resetIn = true) : step s = .next (applyReset s) := if_pos hr

/-- Settles O55: the step applies reset, whose registers are those of the reset state; the log, the records, the backlog and
the configuration stay. -/
theorem resetAbandonsTheOperation : Obligations.ResetAbandonsTheOperation := by
  intro s hr
  obtain ⟨hcurPan, hcurTilt, hdestPan, hdestTilt, hidle, htxLen, hrxLen, hcode, hexp, hact, _⟩ := resetValues
  exact ⟨applyReset s, step_of_reset hr, hidle, applyReset_log s, applyReset_rxs s, applyReset_rxMore s, applyReset_cfg s,
    applyReset_cmd s, htxLen, hrxLen, hcode, hexp, hact, hcurPan, hcurTilt, hdestPan, hdestTilt⟩

end Sys2Proof.Machine
end
